-- ==== Sys2Proof/Word.lean ====
section
/-! DEFINITION. The word types, the two colour values, the three texture formats and the seven bit formats of BCRS-CORE. -/

namespace Sys2Proof

/-- `u8` (R11). -/
abbrev Byte := BitVec 8

/-- `u16` (R11). -/
abbrev Half := BitVec 16

/-- `u32` (R11). -/
abbrev Word := BitVec 32

/-- Color888 (R92): three independent 8-bit channels. It has no packed integer form. -/
structure Color888 where
  r : Byte
  g : Byte
  b : Byte
  deriving DecidableEq, Repr

/-- The four palette entries `PAL[0..3]` of a block (R40, R96). -/
structure Palette where
  p0 : Color888
  p1 : Color888
  p2 : Color888
  p3 : Color888
  deriving DecidableEq, Repr

/-- The Texture formats (R27); their tags stand in `TexFormat.tag`. -/
inductive TexFormat where
  | uncompressed24
  | uncompressed32
  | bc1
  deriving DecidableEq, Repr

/-- The seven bit formats that the opcode table's rows belong to (R108). -/
inductive Format where
  /-- the command word the host writes to `CMD` (R90) -/
  | cmd
  /-- a 5-bit colour channel (R210) -/
  | ch5
  /-- a 6-bit colour channel (R211) -/
  | ch6
  /-- the packed 5:6:5 colour (R91) -/
  | c565
  /-- the 8-byte compressed block (R93) -/
  | bc1blk
  /-- a 2-bit palette index (R96) -/
  | idx2
  /-- the pixel-format key (R101) -/
  | pfkey
  deriving DecidableEq, Repr

end Sys2Proof
end

