-- ==== Sys2Proof/Config.lean ====
section
/-! DEFINITION. The parameters of an implementation (R9) as one record, and the free values the spec leaves open. -/

namespace Sys2Proof

/-- Where the truncation of the two-thirds blend falls (R9, R187). -/
inductive BlendMode where
  | a
  | b
  deriving DecidableEq, Repr

/-- The parameters of R9. A machine's state carries one record of them and no step changes it, so that a statement
about every state holds for every value of every parameter (log entry 1). The defaults of R9 are `Params.default`. -/
structure Params where
  /-- `CAP`: the capacity in bytes of each buffer; `none` is an unbounded capacity (R9, U4). -/
  cap : Option Nat
  /-- `PF_FOURCC`. -/
  pfFourcc : Word
  /-- `PF_HAS_ALPHA`. No rule reads it but through `ALPHA_SEL_MASK`. -/
  pfHasAlpha : Word
  /-- `PF_ALPHA`. No rule reads it. -/
  pfAlpha : Word
  /-- `PF_RGB`. No rule reads it. -/
  pfRgb : Word
  /-- `ALPHA_SEL_MASK`. -/
  alphaSelMask : Word
  /-- `FOURCC_BC1`, held as `le32` of its four bytes in stream order (R61). -/
  fourccBc1 : Word
  /-- `BLEND_MODE`. -/
  blend : BlendMode
  /-- `LANES`. No result depends on it (R186, R254), and no rule of the model reads it. -/
  lanes : Nat
  deriving DecidableEq, Repr

/-- FREE VALUE (U6, R42): what the byte of `DBUF` at an address holds when the host has written nothing there since
reset number `epoch`. It has no body, so nothing can be proved of it. -/
opaque Config.dbufByte (epoch addr : Nat) : Byte

/-- FREE VALUE (U8, R271): how many further items of the stream a `READ` that reset abandons had pulled when reset
number `epoch` came. It has no body, so nothing can be proved of it. -/
opaque Config.pulledBeforeReset (epoch : Nat) : Nat

end Sys2Proof
end

