-- ==== Sys2Proof/Syntax.lean ====
section
/-! DEFINITION. The instructions: one constructor for each of the eighteen rows of spec/opcode_table.json (R108, R220). -/

namespace Sys2Proof

/-- The rows of the opcode table. The first five are command words the host can issue (R90, R105); the others are the
decode steps inside `DECODE` and `READ`, which the spec gives as operations of their own (R7, R108). -/
inductive Instr where
  /-- `NOP`, command word 0 (R248) -/
  | nop
  /-- `READ`, command word 1 (R130) -/
  | read
  /-- `DECODE`, command word 2 (R170) -/
  | decode
  /-- `CMD.RSV3`, the reserved command word 3 (R247) -/
  | cmdRsv3
  /-- `CMD.RSVHI`, a reserved command word with a bit set above bit 1 (R247); `zero` is `w[31:2]`, `op` is `w[1:0]` -/
  | cmdRsvhi (op : BitVec 2) (zero : BitVec 30)
  /-- `CX5`, the expansion of a 5-bit channel (R210) -/
  | cx5 (v : BitVec 5)
  /-- `CX6`, the expansion of a 6-bit channel (R211) -/
  | cx6 (v : BitVec 6)
  /-- `CX565`, the expansion of a packed colour (R212) -/
  | cx565 (r5 : BitVec 5) (g6 : BitVec 6) (b5 : BitVec 5)
  /-- `BLK.4C`, a block with `color0 > color1` (R95, R177) -/
  | blk4c (color0 color1 : Half) (indices : Word)
  /-- `BLK.3C`, a block with `color0 <= color1` (R95, R178) -/
  | blk3c (color0 color1 : Half) (indices : Word)
  /-- `SEL.0`, index 0 (R179) -/
  | sel0
  /-- `SEL.1`, index 1 (R179) -/
  | sel1
  /-- `SEL.2`, index 2 (R179) -/
  | sel2
  /-- `SEL.3`, index 3 (R179) -/
  | sel3
  /-- `FMT.BC1`, a key with the four-character flag and the BC1 code (R140) -/
  | fmtBc1 (flags fourCc : Word)
  /-- `FMT.UNSUP`, a key with the four-character flag and another code (R141) -/
  | fmtUnsup (flags fourCc : Word)
  /-- `FMT.RGB32`, a key without the four-character flag and with the alpha flag (R142) -/
  | fmtRgb32 (flags fourCc : Word)
  /-- `FMT.RGB24`, a key with neither (R142) -/
  | fmtRgb24 (flags fourCc : Word)
  deriving DecidableEq, Repr

end Sys2Proof
end

