-- ==== Sys2Proof/WellFormed.lean ====
section
/-! DEFINITION. Well-formed instructions: the side conditions of the opcode table that a constructor's fields do not carry. -/

namespace Sys2Proof

/-- The condition column of the opcode table under the parameters `p`: a `CMD.RSVHI` word has a bit set above bit 1, a
block's mode is the one its endpoints select (R95), and a pixel-format key is the one of its row (R101). -/
def Instr.wf (p : Params) : Instr → Bool
  | .nop => true
  | .read => true
  | .decode => true
  | .cmdRsv3 => true
  | .cmdRsvhi _ zero => decide (zero ≠ 0)
  | .cx5 _ => true
  | .cx6 _ => true
  | .cx565 _ _ _ => true
  | .blk4c color0 color1 _ => decide (color1 < color0)
  | .blk3c color0 color1 _ => decide (color0 ≤ color1)
  | .sel0 => true
  | .sel1 => true
  | .sel2 => true
  | .sel3 => true
  | .fmtBc1 flags fourCc => decide (flags &&& p.pfFourcc ≠ 0) && decide (fourCc = p.fourccBc1)
  | .fmtUnsup flags fourCc => decide (flags &&& p.pfFourcc ≠ 0) && decide (fourCc ≠ p.fourccBc1)
  | .fmtRgb32 flags _ => decide (flags &&& p.pfFourcc = 0) && decide (flags &&& p.alphaSelMask ≠ 0)
  | .fmtRgb24 flags _ => decide (flags &&& p.pfFourcc = 0) && decide (flags &&& p.alphaSelMask = 0)

end Sys2Proof
end

