-- ==== Sys2Proof/Decode.lean ====
section
/-! DEFINITION. The parameters' defaults, byte order, the decoder of the seven bit formats, and the encoder. -/

namespace Sys2Proof

/-- The default parameters of R9: unbounded capacity (U4), the flag bits and the BC1 code from general knowledge
(R9, D12, G2, G4), `ALPHA_SEL_MASK = PF_HAS_ALPHA` (D13), blend mode A (D16) and one lane (D19). -/
def Params.default : Params where
  cap := none
  pfFourcc := 0x4
  pfHasAlpha := 0x1
  pfAlpha := 0x2
  pfRgb := 0x40
  alphaSelMask := 0x1
  fourccBc1 := 0x31545844
  blend := .a
  lanes := 1

/-- `le16` (R12): `b0` is the byte at the lowest offset. -/
def le16 (b0 b1 : Byte) : Half := b1 ++ b0

/-- `le32` (R12): `b0` is the byte at the lowest offset. -/
def le32 (b0 b1 b2 b3 : Byte) : Word := b3 ++ b2 ++ b1 ++ b0

/-- The width in bits of a word of a format (R108). -/
def Format.width : Format → Nat
  | .cmd => 32
  | .ch5 => 5
  | .ch6 => 6
  | .c565 => 16
  | .bc1blk => 64
  | .idx2 => 2
  | .pfkey => 64

/-- Why the decoder rejects a word. Every word that fits its format decodes: the reserved command words are rows of
their own, and no other format has a reserved pattern (R91, R93, R105). -/
inductive DecodeError where
  /-- the word does not fit its format's width -/
  | tooWide (f : Format)
  deriving DecidableEq, Repr

/-- The decoder's answer. -/
inductive Decoded where
  | instr (i : Instr)
  | rejected (e : DecodeError)
  deriving DecidableEq, Repr

/-- Format `CMD` (R90): decoding is by the whole word. -/
def decodeCmd (w : Word) : Instr :=
  if w = 0 then .nop
  else if w = 1 then .read
  else if w = 2 then .decode
  else if w = 3 then .cmdRsv3
  else .cmdRsvhi (w.extractLsb' 0 2) (w.extractLsb' 2 30)

/-- Format `C565` (R91): `r5 = v[15:11]`, `g6 = v[10:5]`, `b5 = v[4:0]`. -/
def decodeC565 (v : Half) : Instr :=
  .cx565 (v.extractLsb' 11 5) (v.extractLsb' 5 6) (v.extractLsb' 0 5)

/-- Block mode (R95): an unsigned comparison of the packed endpoints, equality selecting the three-colour mode. -/
def blockInstr (color0 color1 : Half) (indices : Word) : Instr :=
  if color1 < color0 then .blk4c color0 color1 indices else .blk3c color0 color1 indices

/-- Format `BC1BLK` (R93): the block's 8 bytes as one little-endian integer. -/
def decodeBlk (q : BitVec 64) : Instr :=
  blockInstr (q.extractLsb' 0 16) (q.extractLsb' 16 16) (q.extractLsb' 32 32)

/-- Format `IDX2` (R96). -/
def decodeIdx (i : BitVec 2) : Instr :=
  if i = 0 then .sel0 else if i = 1 then .sel1 else if i = 2 then .sel2 else .sel3

/-- Format `PFKEY` (R101): the four rows in their priority order, under the parameters `p`. -/
def keyInstr (p : Params) (flags fourCc : Word) : Instr :=
  if flags &&& p.pfFourcc ≠ 0 then
    if fourCc = p.fourccBc1 then .fmtBc1 flags fourCc else .fmtUnsup flags fourCc
  else if flags &&& p.alphaSelMask ≠ 0 then .fmtRgb32 flags fourCc
  else .fmtRgb24 flags fourCc

/-- Format `PFKEY` (R101): `key[31:0]` is `pf.flags`, `key[63:32]` is `le32` of the four code bytes. -/
def decodeKey (p : Params) (key : BitVec 64) : Instr :=
  keyInstr p (key.extractLsb' 0 32) (key.extractLsb' 32 32)

/-- The decoder: a word of format `f`, as the number its bits make. It is total, and rejects by name a word wider than
its format. The machine knows the format of a word from where the word stands (R108). -/
def decodeWord (p : Params) (f : Format) (w : Nat) : Decoded :=
  if w < 2 ^ f.width then
    match f with
    | .cmd => .instr (decodeCmd (BitVec.ofNat 32 w))
    | .ch5 => .instr (.cx5 (BitVec.ofNat 5 w))
    | .ch6 => .instr (.cx6 (BitVec.ofNat 6 w))
    | .c565 => .instr (decodeC565 (BitVec.ofNat 16 w))
    | .bc1blk => .instr (decodeBlk (BitVec.ofNat 64 w))
    | .idx2 => .instr (decodeIdx (BitVec.ofNat 2 w))
    | .pfkey => .instr (decodeKey p (BitVec.ofNat 64 w))
  else .rejected (.tooWide f)

/-- The format of an instruction's row (R108). -/
def Instr.format : Instr → Format
  | .nop => .cmd
  | .read => .cmd
  | .decode => .cmd
  | .cmdRsv3 => .cmd
  | .cmdRsvhi _ _ => .cmd
  | .cx5 _ => .ch5
  | .cx6 _ => .ch6
  | .cx565 _ _ _ => .c565
  | .blk4c _ _ _ => .bc1blk
  | .blk3c _ _ _ => .bc1blk
  | .sel0 => .idx2
  | .sel1 => .idx2
  | .sel2 => .idx2
  | .sel3 => .idx2
  | .fmtBc1 _ _ => .pfkey
  | .fmtUnsup _ _ => .pfkey
  | .fmtRgb32 _ _ => .pfkey
  | .fmtRgb24 _ _ => .pfkey

/-- The word of an instruction in its format, from the same tables (R90, R91, R93, R96, R101). -/
def encode : Instr → Nat
  | .nop => 0
  | .read => 1
  | .decode => 2
  | .cmdRsv3 => 3
  | .cmdRsvhi op zero => (zero ++ op).toNat
  | .cx5 v => v.toNat
  | .cx6 v => v.toNat
  | .cx565 r5 g6 b5 => (r5 ++ g6 ++ b5).toNat
  | .blk4c color0 color1 indices => (indices ++ color1 ++ color0).toNat
  | .blk3c color0 color1 indices => (indices ++ color1 ++ color0).toNat
  | .sel0 => 0
  | .sel1 => 1
  | .sel2 => 2
  | .sel3 => 3
  | .fmtBc1 flags fourCc => (fourCc ++ flags).toNat
  | .fmtUnsup flags fourCc => (fourCc ++ flags).toNat
  | .fmtRgb32 flags fourCc => (fourCc ++ flags).toNat
  | .fmtRgb24 flags fourCc => (fourCc ++ flags).toNat

/-- Which format a word of the opcode table has when only its size and its bits are told. A size that one format has
names it. Several formats share a size in whole bytes, and nothing in the spec's words tells them apart, since the
machine knows a word's format from where it stands: of the formats that fit one byte the narrowest that holds the word
is taken, and a 64-bit word is a pixel-format key unless a bit of `color1` is set (log entry 9, DESIGN CHOICE). -/
def tableFormat (nbits w : Nat) : Option Format :=
  if nbits = 32 then some .cmd
  else if nbits = 16 then some .c565
  else if nbits = 64 then some (if w / 65536 % 65536 = 0 then .pfkey else .bc1blk)
  else if nbits = 5 then some .ch5
  else if nbits = 6 then some .ch6
  else if nbits = 2 then some .idx2
  else if nbits = 8 then
    (if w < 4 then some .idx2 else if w < 32 then some .ch5 else if w < 64 then some .ch6 else none)
  else none

/-- What the decoder reads, under the default parameters, from a word of the opcode table. -/
def decodeTableWord (nbits w : Nat) : Option Instr :=
  match tableFormat nbits w with
  | none => none
  | some f =>
    match decodeWord Params.default f w with
    | .instr i => some i
    | .rejected _ => none

end Sys2Proof
end

