-- ==== Sys2Proof/Machine/State.lean ====
section
/-! DEFINITION. The machine's state as plain data, the events of the world outside the core, the faults and refusals, and
the state after reset. -/

namespace Sys2Proof.Machine

/-- A buffer: the bytes written to it, by rising address. An unlisted address holds no value the spec gives
(R41, R42). -/
abbrev Memory := List Host.Cell

/-- `STATUS.state` (R22); the codes stand in `RunState.code`. -/
inductive RunState where
  /-- no command since reset -/
  | idle
  /-- a command is executing -/
  | busy
  /-- the last command succeeded -/
  | doneOk
  /-- the last command failed -/
  | doneErr
  deriving DecidableEq, Repr

/-- The error kinds of `ERRKIND` (R23, R230); the codes stand in `ErrKind.code`. -/
inductive ErrKind where
  | none
  | malformed
  | stream
  deriving DecidableEq, Repr

/-- The causes of R231 and R232; kind and code stand in `Cause.kind` and `Cause.code`. -/
inductive Cause where
  | badMagic
  | badHeaderSize
  | badPfSize
  | unsupportedFormat
  | badBlockLength
  | blockUnderrun
  | sMagic
  | sHeader
  | sPayload
  deriving DecidableEq, Repr

/-- `PHASE`, the sequencer's position (R33). -/
inductive Phase where
  | pIdle
  | pMagic
  | pHeader
  | pCheck
  | pPayload
  | pDcheck
  | pDblock
  | pDone
  deriving DecidableEq, Repr

/-- One answer of the stream source to a pull (R14, R35). -/
inductive StreamItem where
  | byte (b : Byte)
  | endOfStream
  | fail
  deriving DecidableEq, Repr

/-- The three byte-addressed spaces (R36, R37, R38). -/
inductive Space where
  | dbuf
  | pbuf
  | rbuf
  deriving DecidableEq, Repr

/-- The fifteen host-visible registers (R20); their numbers stand in `Reg.number`. -/
inductive Reg where
  | cmd
  | status
  | errKind
  | errCode
  | errExp
  | errFnd
  | tWidth
  | tHeight
  | tFormat
  | tPaylen
  | spos
  | dWidth
  | dHeight
  | dDatalen
  | dRaslen
  deriving DecidableEq, Repr

/-- The registers of R20 that are read-only for the host. -/
inductive RoReg where
  | status
  | errKind
  | errCode
  | errExp
  | errFnd
  | tWidth
  | tHeight
  | tFormat
  | tPaylen
  | spos
  | dRaslen
  deriving DecidableEq, Repr

/-- A host write of a whole register (R44), with a value of that register's width (R20). -/
inductive RegWrite where
  | cmd (w : Word)
  | dWidth (v : Word)
  | dHeight (v : Word)
  | dDatalen (v : BitVec 66)
  /-- a write to a register that is read-only for the host, with a value of at most `LEN_W` bits -/
  | readOnly (r : RoReg) (v : BitVec 66)
  deriving DecidableEq, Repr

/-- What the world outside the core does at one step (R6): the host, the stream source, the platform's reset. -/
inductive Event where
  /-- nobody outside acts: the core goes on by itself -/
  | idle
  /-- the host writes a register (R43) -/
  | write (rw : RegWrite)
  /-- the host writes one byte of `DBUF` (R36, R43) -/
  | writeDbuf (addr : Nat) (b : Byte)
  /-- the host reads a register; the value is `State.hostReg` (R67) -/
  | readReg (r : Reg)
  /-- the host reads a byte of a buffer; the value is `State.hostByte` (R67) -/
  | readByte (sp : Space) (addr : Nat)
  /-- the stream source has its next answer ready (R14, R35) -/
  | answer (i : StreamItem)
  /-- the host re-positions or replaces the stream source (R284): these are its answers from now on -/
  | attach (items : List StreamItem)
  /-- the platform's reset (R270) -/
  | reset
  /-- MODEL'S OWN (log entry 8, DESIGN CHOICE): a word of a format is presented to the decoder from outside, so that a
  datapath row can be run alone (R7, R108) -/
  | present (f : Format) (w : Nat)
  deriving DecidableEq, Repr

/-- All of the machine's state, with the agents around the core (R6). -/
structure State where
  /-- `STATUS.state` (R22) -/
  state : RunState
  /-- `STATUS.op` (R22) -/
  op : BitVec 2
  /-- `STATUS.cmd_rej` (R22) -/
  cmdRej : Bool
  /-- `ERRKIND` (R23) -/
  errKind : ErrKind
  /-- `ERRCODE[7:0]` (R24) -/
  errCode : Byte
  /-- `ERREXP` (R25); a length, an unbounded natural (R9, R11) -/
  errExp : Nat
  /-- `ERRFND` (R25) -/
  errFnd : Nat
  /-- `T_WIDTH` (R26) -/
  tWidth : Word
  /-- `T_HEIGHT` (R26) -/
  tHeight : Word
  /-- `T_FORMAT` (R27) -/
  tFormat : TexFormat
  /-- `T_PAYLEN` (R28) -/
  tPaylen : Nat
  /-- `SPOS` (R29) -/
  spos : Nat
  /-- `D_WIDTH` (R30) -/
  dWidth : Word
  /-- `D_HEIGHT` (R30) -/
  dHeight : Word
  /-- `D_DATALEN` (R31) -/
  dDatalen : Nat
  /-- `D_RASLEN` (R32) -/
  dRaslen : Nat
  /-- `DBUF` (R36) -/
  dbuf : Memory
  /-- `PBUF` (R37) -/
  pbuf : Memory
  /-- `RBUF` (R38) -/
  rbuf : Memory
  /-- `PHASE` (R33) -/
  phase : Phase
  /-- `BIDX` (R33) -/
  bidx : Nat
  /-- `n`, the pixel within the block (R33) -/
  pix : BitVec 4
  /-- `MAGICBUF` (R39), the bytes of it obtained so far -/
  magicBuf : List Byte
  /-- `HDRBUF` (R39), the bytes of it obtained so far -/
  hdrBuf : List Byte
  /-- the format the last pixel-format key selected (R140 to R142), not visible to the host -/
  fmtSel : TexFormat
  /-- `width`, the copy of `D_WIDTH` sampled at acceptance (R171) -/
  argWidth : Word
  /-- `height`, the copy of `D_HEIGHT` sampled at acceptance (R171) -/
  argHeight : Word
  /-- `datalen`, the copy of `D_DATALEN` sampled at acceptance (R171) -/
  argDatalen : Nat
  /-- `color0` of the block in the datapath (R40) -/
  color0 : Half
  /-- `color1` of the block in the datapath (R40) -/
  color1 : Half
  /-- `indices` of the block in the datapath (R40) -/
  indices : Word
  /-- the expanded endpoint `e0` (R40, R176) -/
  e0 : Color888
  /-- the expanded endpoint `e1` (R40, R176) -/
  e1 : Color888
  /-- `PAL[0..3]` (R40) -/
  pal : Palette
  /-- MODEL'S OWN: the channel the last `CX5` or `CX6` gave (log entry 8); 0 at reset (log entry 4, DESIGN CHOICE) -/
  chOut : Byte
  /-- MODEL'S OWN: the colour the last `CX565` or `SEL` gave (log entry 8); black at reset (log entry 4, DESIGN CHOICE) -/
  colOut : Color888
  /-- `SIN` (R35): the answers the stream source has ready, in order -/
  sin : List StreamItem
  /-- MODEL'S OWN: what the world outside does at the coming steps, one event a step (log entry 3) -/
  inbox : List Event
  /-- MODEL'S OWN: how many resets there have been; the free values are applied to it (log entry 5) -/
  epoch : Nat
  /-- the parameters of R9, which no step changes (log entry 1) -/
  params : Params
  deriving DecidableEq, Repr

/-- Why the machine stops with a fault. Each is a thing the spec assumes the world outside never does; none is raised
by an instruction. -/
inductive Fault where
  /-- The host writes `DBUF` while a `DECODE` is `BUSY` (R281, U9: `stuck` for the host). Raised by the event
  `writeDbuf`. Safe: the model stops where the spec gives no meaning. -/
  | dbufWriteDuringDecode
  /-- The stream is re-positioned or replaced while a `READ` is `BUSY` (R283, U10). Raised by the event `attach`.
  Safe: the model stops where the spec gives no meaning. -/
  | streamReplacedDuringRead
  /-- The host writes an address of `DBUF` at or beyond the capacity (R9, R70). Raised by the event `writeDbuf`.
  Safe: no such byte exists. -/
  | noSuchDbufByte
  deriving DecidableEq, Repr

/-- Why the model gives a step no meaning. -/
inductive Refusal where
  /-- An instruction that has no meaning yet. Raised by `exec`'s own arms alone. Safe. -/
  | notModelled (mnemonic : String)
  /-- A command that needs more than `CAP` bytes of a buffer (R70, U4: `refuse`). Raised by `READ` and `DECODE`, under
  a finite `CAP` alone. Safe. -/
  | overCapacity (need : Nat)
  /-- A word presented to the decoder that is wider than its format. Raised by the event `present`, which is the
  model's own. Safe. -/
  | undecodable (e : DecodeError)
  deriving DecidableEq, Repr

/-- Black, `(0, 0, 0)` (R178). -/
def black : Color888 := ⟨0, 0, 0⟩

/-- The state right after reset (R42, R270): every register 0, `IDLE`, `P_IDLE`, the buffers with nothing the spec
gives in them. The internal registers, which R42 leaves unspecified, are zero, and so are the model's own result fields `chOut`
and `colOut`, for which the spec has no value (log entry 4, DESIGN CHOICE). Nothing is queued, and
the stream source has no answer ready (log entry 3). The parameters are the defaults of R9. -/
def State.reset : State where
  state := .idle
  op := 0
  cmdRej := false
  errKind := .none
  errCode := 0
  errExp := 0
  errFnd := 0
  tWidth := 0
  tHeight := 0
  tFormat := .uncompressed24
  tPaylen := 0
  spos := 0
  dWidth := 0
  dHeight := 0
  dDatalen := 0
  dRaslen := 0
  dbuf := []
  pbuf := []
  rbuf := []
  phase := .pIdle
  bidx := 0
  pix := 0
  magicBuf := []
  hdrBuf := []
  fmtSel := .uncompressed24
  argWidth := 0
  argHeight := 0
  argDatalen := 0
  color0 := 0
  color1 := 0
  indices := 0
  e0 := black
  e1 := black
  pal := ⟨black, black, black, black⟩
  chOut := 0
  colOut := black
  sin := []
  inbox := []
  epoch := 0
  params := Params.default

end Sys2Proof.Machine
end

