-- ==== Sys2Proof/Machine/Operands.lean ====
section
/-! DEFINITION. Every operand form of the spec: the fields of the stream's first 128 bytes, the fields of a block, the
index entries, the block grid, and the addresses of blocks and pixels (R104, R225). -/

namespace Sys2Proof.Machine

/-! ### The fixed parameters (R8) -/

/-- `MAGIC`, the bytes of `"DDS "`. -/
def magicBytes : List Byte := [0x44, 0x44, 0x53, 0x20]

/-- `HDR_SIZE`. -/
def hdrSize : Nat := 124

/-- `PF_SIZE`. -/
def pfSize : Nat := 32

/-- `BLOCK_BYTES`. -/
def blockBytes : Nat := 8

/-- `TILE`. -/
def tile : Nat := 4

/-- `RASTER_BPP`. -/
def rasterBpp : Nat := 3

/-! ### Fields of the header (R97, R98, R133) -/

/-- The byte at offset `j` of a byte string; every use is at an offset inside the string. -/
def byteAt (h : List Byte) (j : Nat) : Byte := h.getD j 0

/-- `le32` of the four bytes from offset `j`. -/
def le32At (h : List Byte) (j : Nat) : Word :=
  le32 (byteAt h j) (byteAt h (j + 1)) (byteAt h (j + 2)) (byteAt h (j + 3))

/-- `size`, header offset 0. -/
def hSize (h : List Byte) : Word := le32At h 0

/-- `height`, header offset 8. -/
def hHeight (h : List Byte) : Word := le32At h 8

/-- `width`, header offset 12. -/
def hWidth (h : List Byte) : Word := le32At h 12

/-- `pf.size`, header offset 72. -/
def hPfSize (h : List Byte) : Word := le32At h 72

/-- `pf.flags`, header offset 76. -/
def hPfFlags (h : List Byte) : Word := le32At h 76

/-- `pf.four_cc`, header offset 80, as `le32` of its four bytes (R61). -/
def hFourCc (h : List Byte) : Word := le32At h 80

/-! ### Blocks (R93, R94) -/

/-- `idx(n) = (indices >> 2n) & 3` (R94, R179). -/
def indexEntry (indices : Word) (n : Nat) : BitVec 2 := (indices >>> (2 * n)).setWidth 2

/-- Palette entry `PAL[i]` (R96). -/
def paletteEntry (pal : Palette) (i : BitVec 2) : Color888 :=
  if i = 0 then pal.p0 else if i = 1 then pal.p1 else if i = 2 then pal.p2 else pal.p3

/-- `SEL(indices, n, PAL)` (R179). -/
def sel (indices : Word) (n : Nat) (pal : Palette) : Color888 := paletteEntry pal (indexEntry indices n)

/-! ### The block grid and the addresses (R173, R175, R180, R182) -/

/-- Cells of the block grid along a dimension: `max(1, floor((d + 3) / 4))`, in naturals (R173). -/
def gridCells (d : Word) : Nat := max 1 ((d.toNat + (tile - 1)) / tile)

/-- How many blocks the grid has: `columns * rows`. -/
def gridBlocks (width height : Word) : Nat := gridCells width * gridCells height

/-- The bytes of input the grid needs: `columns * rows * 8` (R174). -/
def gridBytes (width height : Word) : Nat := gridBlocks width height * blockBytes

/-- The raster's length in bytes: `width * height * 3` (R32, R189). -/
def rasterBytes (width height : Word) : Nat := width.toNat * height.toNat * rasterBpp

/-- The address in `DBUF` of block `i` (R102, R175). -/
def blockAddr (i : Nat) : Nat := blockBytes * i

/-- Raster row of pixel `n` of block `i`: `4*blockRow + x` with `i = blockRow*columns + blockCol`, `n = 4x + y` (R180). -/
def pixelRow (width : Word) (i n : Nat) : Nat := tile * (i / gridCells width) + n / tile

/-- Raster column of pixel `n` of block `i`: `4*blockCol + y` (R180). -/
def pixelCol (width : Word) (i n : Nat) : Nat := tile * (i % gridCells width) + n % tile

/-- Address in `RBUF` of the pixel in row `r`, column `c`: `(R*width + C) * 3` (R182). -/
def pixelAddr (width : Word) (r c : Nat) : Nat := (r * width.toNat + c) * rasterBpp

/-- A colour as it is stored: red, green, blue (R62, R92). -/
def colourBytes (c : Color888) : List Byte := [c.r, c.g, c.b]

end Sys2Proof.Machine
end

