-- ==== Sys2Proof/Machine/Flags.lean ====
section
/-! DEFINITION. The status and error encodings the host sees, and the tests of flag bits. The core has no arithmetic
flags or condition codes (R34): `STATUS`, `ERRKIND`, `ERRCODE` and `T_FORMAT` are all it has of the kind. -/

namespace Sys2Proof.Machine

/-- The code of `STATUS.state` (R22). -/
def RunState.code : RunState → BitVec 2
  | .idle => 0
  | .busy => 1
  | .doneOk => 2
  | .doneErr => 3

/-- The code of `ERRKIND` (R23). -/
def ErrKind.code : ErrKind → BitVec 2
  | .none => 0
  | .malformed => 1
  | .stream => 2

/-- The kind of a cause (R231, R232). -/
def Cause.kind : Cause → ErrKind
  | .badMagic => .malformed
  | .badHeaderSize => .malformed
  | .badPfSize => .malformed
  | .unsupportedFormat => .malformed
  | .badBlockLength => .malformed
  | .blockUnderrun => .malformed
  | .sMagic => .stream
  | .sHeader => .stream
  | .sPayload => .stream

/-- The `ERRCODE` of a cause (R231, R232). -/
def Cause.code : Cause → Byte
  | .badMagic => 1
  | .badHeaderSize => 2
  | .badPfSize => 3
  | .unsupportedFormat => 4
  | .badBlockLength => 5
  | .blockUnderrun => 6
  | .sMagic => 1
  | .sHeader => 2
  | .sPayload => 3

/-- The tag of a Texture format (R27). -/
def formatTag : TexFormat → BitVec 2
  | .uncompressed24 => 0
  | .uncompressed32 => 1
  | .bc1 => 2

/-- Bytes per pixel of an uncompressed format (R142); a compressed payload has no such count. -/
def bytesPerPixel : TexFormat → Nat
  | .uncompressed24 => 3
  | .uncompressed32 => 4
  | .bc1 => 0

/-- The format a pixel-format key selects under the parameters `p`, `none` where it is unsupported: the four-character
flag has priority over the alpha flag (R101, R140, R141, R142). -/
def keyFormat (p : Params) (flags fourCc : Word) : Option TexFormat :=
  if flags &&& p.pfFourcc ≠ 0 then
    if fourCc = p.fourccBc1 then some .bc1 else none
  else if flags &&& p.alphaSelMask ≠ 0 then some .uncompressed32
  else some .uncompressed24

/-- `STATUS` as the host reads it (R22): `state` in bits 1:0, `op` in bits 3:2, `cmd_rej` in bit 4, the rest 0. -/
def State.statusWord (s : State) : Word :=
  (0 : BitVec 27) ++ BitVec.ofBool s.cmdRej ++ s.op ++ s.state.code

/-- A command is executing (R22). -/
abbrev State.Busy (s : State) : Prop := s.state = .busy

/-- A `READ` is executing. -/
abbrev State.ReadRunning (s : State) : Prop := s.state = .busy ∧ s.op = 1

/-- A `READ` is executing and its whole header has been obtained, no payload byte yet (R33): the step at which the
pixel-format key is examined, and the stream is not asked (R141). -/
abbrev State.ReadChecking (s : State) : Prop := s.ReadRunning ∧ s.phase = .pCheck

/-- A `DECODE` is executing. -/
abbrev State.DecodeRunning (s : State) : Prop := s.state = .busy ∧ s.op = 2

end Sys2Proof.Machine
end

