-- ==== Sys2Proof/Machine/Ops.lean ====
section
/-! DEFINITION. The shared operations: byte buffers, stream pulls, acceptance and refusal of a command, raising an
error, completing, and what the host reads. -/

namespace Sys2Proof.Machine

/-! ### Buffers (R13, R36, R37, R38) -/

/-- The canonical form: addresses strictly rising. An unlisted address reads as no value, so no entry can equal it. -/
def Memory.wf : Memory → Bool
  | [] => true
  | [_] => true
  | (a, _) :: (b, y) :: m => decide (a < b) && Memory.wf ((b, y) :: m)

/-- The byte written at an address, if one was. -/
def Memory.read : Memory → Nat → Option Byte
  | [], _ => none
  | (c, y) :: m, a => if c = a then some y else Memory.read m a

/-- `MemWrite` of one byte, keeping the canonical form. -/
def Memory.write : Memory → Nat → Byte → Memory
  | [], a, b => [(a, b)]
  | (c, y) :: m, a, b =>
    if a < c then (a, b) :: (c, y) :: m
    else if a = c then (a, b) :: m
    else (c, y) :: Memory.write m a b

/-- `MemWrite(space, addr, n, v)`: the bytes of `v` at rising addresses from `a` (R13). -/
def Memory.writeList : Memory → Nat → List Byte → Memory
  | m, _, [] => m
  | m, a, b :: bs => Memory.writeList (Memory.write m a b) (a + 1) bs

/-- `data[j]`: the byte of `DBUF` at address `j` (R171); one that nothing has written is a free value (U6). -/
def State.dbufByte (s : State) (j : Nat) : Byte := (s.dbuf.read j).getD (Config.dbufByte s.epoch j)

/-- More than `CAP` bytes of a buffer are needed (R9, R70). -/
def overCap (p : Params) (need : Nat) : Bool :=
  match p.cap with
  | none => false
  | some c => decide (c < need)

/-! ### The stream (R14, R35) -/

/-- The answers that deliver a list of bytes. -/
def itemsOf (S : List Byte) : List StreamItem := S.map StreamItem.byte

/-- What a run of pulls came to: every byte wanted was obtained; the stream ended or broke first; or the source has no
further answer ready, and the command waits (R255). `got` are the bytes obtained and `rest` is what the stream still
holds. -/
inductive Pulled where
  | complete (got : List Byte) (rest : List StreamItem)
  | short (got : List Byte) (rest : List StreamItem)
  | waiting (got : List Byte)
  deriving DecidableEq, Repr

/-- One more byte obtained in front. -/
def Pulled.cons (b : Byte) : Pulled → Pulled
  | .complete got rest => .complete (b :: got) rest
  | .short got rest => .short (b :: got) rest
  | .waiting got => .waiting (b :: got)

/-- `StreamRead(n)` (R14): pull until `n` bytes are obtained; `End` or `Fail` first is short. `StreamRead(0)` pulls
nothing. -/
def streamRead : Nat → List StreamItem → Pulled
  | 0, items => .complete [] items
  | _ + 1, [] => .waiting []
  | n + 1, .byte b :: items => (streamRead n items).cons b
  | _ + 1, .endOfStream :: items => .short [] items
  | _ + 1, .fail :: items => .short [] items
termination_by structural _ items => items

/-- `StreamRest()` (R14): pull until `End`, which completes, or `Fail`, which is short. -/
def streamRest : List StreamItem → Pulled
  | [] => .waiting []
  | .byte b :: items => (streamRest items).cons b
  | .endOfStream :: items => .complete [] items
  | .fail :: items => .short [] items

/-- The stream and `SPOS` after `got` was obtained and `rest` is left (R29). -/
def State.pulled (s : State) (got : List Byte) (rest : List StreamItem) : State :=
  { s with spos := s.spos + got.length, sin := rest }

/-! ### Acceptance, refusal, failure, completion (R240, R245, R246, R247) -/

/-- The sequencer goes on to a phase (R33). -/
def State.enter (s : State) (ph : Phase) : State := { s with phase := ph }

/-- A refused write to `CMD`: `STATUS.cmd_rej <- 1` and no other effect (R247). -/
def State.reject (s : State) : State := { s with cmdRej := true }

/-- Acceptance of a `READ` (R130, R246): `BUSY`, the error registers and the results of `READ` cleared, `PBUF`
unspecified. -/
def State.acceptRead (s : State) : State :=
  { s with
    state := .busy, op := 1, cmdRej := false
    errKind := .none, errCode := 0, errExp := 0, errFnd := 0
    tWidth := 0, tHeight := 0, tFormat := .uncompressed24, tPaylen := 0, spos := 0
    pbuf := []
    phase := .pMagic, magicBuf := [], hdrBuf := [] }

/-- Acceptance of a `DECODE` (R170, R171, R246): `BUSY`, the error registers and `D_RASLEN` cleared, `RBUF`
unspecified, the arguments sampled. -/
def State.acceptDecode (s : State) : State :=
  { s with
    state := .busy, op := 2, cmdRej := false
    errKind := .none, errCode := 0, errExp := 0, errFnd := 0
    dRaslen := 0
    rbuf := []
    phase := .pDcheck, bidx := 0, pix := 0
    argWidth := s.dWidth, argHeight := s.dHeight, argDatalen := s.dDatalen }

/-- TAKING AN EXCEPTION on this hardware: `raise K(code, exp, fnd)` (R15, R240). The four error registers are written,
the running command's output buffer becomes unspecified, and the command ends `DONE_ERR`. Nothing is saved and control
goes nowhere; nothing returns from it (R242). -/
def State.raise (s : State) (c : Cause) (exp fnd : Nat) : State :=
  { s with
    errKind := c.kind, errCode := c.code, errExp := exp, errFnd := fnd
    pbuf := if s.op = 1 then [] else s.pbuf
    rbuf := if s.op = 2 then [] else s.rbuf
    phase := .pDone, state := .doneErr }

/-- Completion of a `READ` (R145): the four registers of the Texture become visible together. -/
def State.completeRead (s : State) (width height : Word) (fmt : TexFormat) (len : Nat) : State :=
  { s with
    tWidth := width, tHeight := height, tFormat := fmt, tPaylen := len
    errKind := .none, errCode := 0, errExp := 0, errFnd := 0
    phase := .pDone, state := .doneOk }

/-- Completion of a `DECODE` (R189). -/
def State.completeDecode (s : State) : State :=
  { s with
    dRaslen := rasterBytes s.argWidth s.argHeight
    errKind := .none, errCode := 0, errExp := 0, errFnd := 0
    phase := .pDone, state := .doneOk }

/-! ### What the host reads (R20, R41, R67, R282) -/

/-- A register's number on the host interface (R20). -/
def Reg.number : Reg → Nat
  | .cmd => 0
  | .status => 1
  | .errKind => 2
  | .errCode => 3
  | .errExp => 4
  | .errFnd => 5
  | .tWidth => 6
  | .tHeight => 7
  | .tFormat => 8
  | .tPaylen => 9
  | .spos => 10
  | .dWidth => 11
  | .dHeight => 12
  | .dDatalen => 13
  | .dRaslen => 14

/-- A result register's value, which the host may not rely on while the command that writes it runs (R282). -/
def settled (running : Bool) (v : Nat) : Option Nat := if running then none else some v

/-- What a host read of a register gives, as a whole value (R44); `none` where the spec leaves the value unspecified
(R282). `CMD` reads 0 (R21). -/
def State.hostReg (s : State) : Reg → Option Nat
  | .cmd => some 0
  | .status => some s.statusWord.toNat
  | .errKind => some s.errKind.code.toNat
  | .errCode => some s.errCode.toNat
  | .errExp => some s.errExp
  | .errFnd => some s.errFnd
  | .tWidth => settled (decide s.ReadRunning) s.tWidth.toNat
  | .tHeight => settled (decide s.ReadRunning) s.tHeight.toNat
  | .tFormat => settled (decide s.ReadRunning) (formatTag s.tFormat).toNat
  | .tPaylen => settled (decide s.ReadRunning) s.tPaylen
  | .spos => settled (decide s.ReadRunning) s.spos
  | .dWidth => some s.dWidth.toNat
  | .dHeight => some s.dHeight.toNat
  | .dDatalen => some s.dDatalen
  | .dRaslen => settled (decide s.DecodeRunning) s.dRaslen

/-- What a host read of a byte gives; `none` where the contents are unspecified: in an output buffer everywhere but
below its length register, in `DBUF` where the host has written nothing (R41, R42, R282). DESIGN CHOICE (log entry 6): a
byte the host has written to `DBUF` reads as written also at or beyond `D_DATALEN`, where U6 allows any value. -/
def State.hostByte (s : State) (sp : Space) (a : Nat) : Option Byte :=
  match sp with
  | .dbuf => s.dbuf.read a
  | .pbuf => if ¬ s.ReadRunning ∧ a < s.tPaylen then s.pbuf.read a else none
  | .rbuf => if ¬ s.DecodeRunning ∧ a < s.dRaslen then s.rbuf.read a else none

/-! ### What the world outside does (R43, R270, R271) -/

/-- A host write of `D_WIDTH`, ignored while `BUSY` (R30, R43). -/
def State.writeDWidth (s : State) (v : Word) : State := if s.Busy then s else { s with dWidth := v }

/-- A host write of `D_HEIGHT`, ignored while `BUSY` (R30, R43). -/
def State.writeDHeight (s : State) (v : Word) : State := if s.Busy then s else { s with dHeight := v }

/-- A host write of `D_DATALEN`, ignored while `BUSY` (R31, R43). -/
def State.writeDDatalen (s : State) (v : BitVec 66) : State := if s.Busy then s else { s with dDatalen := v.toNat }

/-- Reset (R270, R271): every register as R42 says, the buffers with nothing in them. The stream is not rewound; how
many more items a running `READ` had pulled is a free value (U8). What the world outside does next, and the parameters,
are not the core's to reset. -/
def State.resetNow (s : State) : State :=
  { State.reset with
    sin := if s.ReadRunning then s.sin.drop (Config.pulledBeforeReset (s.epoch + 1)) else s.sin
    inbox := s.inbox
    epoch := s.epoch + 1
    params := s.params }

end Sys2Proof.Machine
end

