-- ==== Sys2Proof/Machine/Command.lean ====
section
/-! DEFINITION. The command words without operands or results: `NOP` and the two reserved classes (R247, R248). -/

namespace Sys2Proof.Machine

/-- `NOP`: no effect in any state (R248). -/
def execNop (s : State) : Host.Outcome State Fault Refusal := .next s

/-- `CMD.RSV3`, the reserved word 3: refused in any state (R247). -/
def execCmdRsv3 (s : State) : Host.Outcome State Fault Refusal := .next s.reject

/-- `CMD.RSVHI`, a word with a bit set above bit 1: refused in any state (R247). -/
def execCmdRsvhi (s : State) : Host.Outcome State Fault Refusal := .next s.reject

end Sys2Proof.Machine
end

