-- ==== Sys2Proof/Machine/Container.lean ====
section
/-! DEFINITION. The `READ` command, the DDS container reader, and the pixel-format key rows it selects the format by
(40_dds_read.md). The steps of the command follow the phases of R33; a phase whose stream has no answer ready leaves the
command `BUSY` in that phase, with what it has obtained, and the same definitions take it up again (R255). -/

namespace Sys2Proof.Machine

/-! ### The pixel-format key (R101) -/

/-- The key selects a format (R140, R142). -/
def State.selectFormat (s : State) (fmt : TexFormat) : State := { s with fmtSel := fmt }

/-- The key names an unsupported code (R141). -/
def State.raiseUnsupported (s : State) (fourCc : Word) : State :=
  s.raise .unsupportedFormat s.params.fourccBc1.toNat fourCc.toNat

/-- `FMT.BC1` as a row (R140). -/
def execFmtBc1 (s : State) : Host.Outcome State Fault Refusal := .next (s.selectFormat .bc1)

/-- `FMT.UNSUP` as a row (R141): it ends a `READ` that stands at the check of its key. Where no `READ` stands there, there is
no check for the error to come from (R15), and nothing happens (log entry 8): a `READ` that waits for its stream is not
ended by the row, since only reset ends one whose stream never answers (R255, R271). -/
def execFmtUnsup (fourCc : Word) (s : State) : Host.Outcome State Fault Refusal :=
  .next (if s.ReadChecking then s.raiseUnsupported fourCc else s)

/-- `FMT.RGB32` as a row (R142). -/
def execFmtRgb32 (s : State) : Host.Outcome State Fault Refusal := .next (s.selectFormat .uncompressed32)

/-- `FMT.RGB24` as a row (R142). -/
def execFmtRgb24 (s : State) : Host.Outcome State Fault Refusal := .next (s.selectFormat .uncompressed24)

/-! ### The payload (R143, R144) -/

/-- How many payload bytes a `READ` has obtained: those beyond the first 128 (R97, R147). -/
def State.payloadGot (s : State) : Nat := s.spos - (magicBytes.length + hdrSize)

/-- The payload bytes just obtained go to `PBUF` behind the earlier ones, and the stream moves on (R62, R225). -/
def State.storePayload (s : State) (got : List Byte) (rest : List StreamItem) : State :=
  { s.pulled got rest with pbuf := s.pbuf.writeList s.payloadGot got }

/-- The payload length of an uncompressed texture: `width * height * bpp`, exactly (R143). -/
def payloadLength (width height : Word) (fmt : TexFormat) : Nat := width.toNat * height.toNat * bytesPerPixel fmt

/-- The compressed payload: every byte to `End` (R144). -/
def readRest (s : State) : Host.Outcome State Fault Refusal :=
  match streamRest s.sin with
  | .waiting got =>
    if overCap s.params (s.payloadGot + got.length) then .refused (.overCapacity (s.payloadGot + got.length))
    else .next (s.storePayload got [])
  | .short got rest =>
    if overCap s.params (s.payloadGot + got.length) then .refused (.overCapacity (s.payloadGot + got.length))
    else .next ((s.storePayload got rest).raise .sPayload 0 (s.payloadGot + got.length))
  | .complete got rest =>
    if overCap s.params (s.payloadGot + got.length) then .refused (.overCapacity (s.payloadGot + got.length))
    else .next ((s.storePayload got rest).completeRead (hWidth s.hdrBuf) (hHeight s.hdrBuf) .bc1
      (s.payloadGot + got.length))

/-- The uncompressed payload: exactly `len` bytes (R143). -/
def readExact (fmt : TexFormat) (len : Nat) (s : State) : Host.Outcome State Fault Refusal :=
  if overCap s.params len then .refused (.overCapacity len)
  else
    match streamRead (len - s.payloadGot) s.sin with
    | .waiting got => .next (s.storePayload got [])
    | .short got rest => .next ((s.storePayload got rest).raise .sPayload len (s.payloadGot + got.length))
    | .complete got rest =>
      .next ((s.storePayload got rest).completeRead (hWidth s.hdrBuf) (hHeight s.hdrBuf) fmt len)

/-- Steps 7 and 8 for the selected format. -/
def readPayload (fmt : TexFormat) (s : State) : Host.Outcome State Fault Refusal :=
  match fmt with
  | .bc1 => readRest s
  | .uncompressed24 => readExact .uncompressed24 (payloadLength (hWidth s.hdrBuf) (hHeight s.hdrBuf) .uncompressed24) s
  | .uncompressed32 => readExact .uncompressed32 (payloadLength (hWidth s.hdrBuf) (hHeight s.hdrBuf) .uncompressed32) s

/-! ### The steps before the payload (R131 to R142) -/

/-- Step 6: the format by the key, then the payload (R140, R141, R142). -/
def readFormat (s : State) : Host.Outcome State Fault Refusal :=
  match keyFormat s.params (hPfFlags s.hdrBuf) (hFourCc s.hdrBuf) with
  | none => .next (s.raiseUnsupported (hFourCc s.hdrBuf))
  | some fmt => readPayload fmt ((s.selectFormat fmt).enter .pPayload)

/-- Steps 3 and 4: the two declared sizes, in this order (R134, R135, R136). -/
def readCheck (s : State) : Host.Outcome State Fault Refusal :=
  if (hSize s.hdrBuf).toNat ≠ hdrSize then .next (s.raise .badHeaderSize hdrSize (hSize s.hdrBuf).toNat)
  else if (hPfSize s.hdrBuf).toNat ≠ pfSize then .next (s.raise .badPfSize pfSize (hPfSize s.hdrBuf).toNat)
  else readFormat s

/-- Header bytes just obtained, behind the earlier ones. -/
def State.storeHeader (s : State) (got : List Byte) (rest : List StreamItem) : State :=
  { s.pulled got rest with hdrBuf := s.hdrBuf ++ got }

/-- Step 2: the whole header before any field of it is examined (R132). -/
def readHeader (s : State) : Host.Outcome State Fault Refusal :=
  match streamRead (hdrSize - s.hdrBuf.length) s.sin with
  | .waiting got => .next (s.storeHeader got [])
  | .short got rest => .next ((s.storeHeader got rest).raise .sHeader hdrSize (s.hdrBuf.length + got.length))
  | .complete got rest => readCheck ((s.storeHeader got rest).enter .pCheck)

/-- Magic bytes just obtained, behind the earlier ones. -/
def State.storeMagic (s : State) (got : List Byte) (rest : List StreamItem) : State :=
  { s.pulled got rest with magicBuf := s.magicBuf ++ got }

/-- Step 1, the comparison with `MAGIC`, byte by byte, before any further pull (R131). -/
def readMagicCheck (s : State) : Host.Outcome State Fault Refusal :=
  if s.magicBuf ≠ magicBytes then .next (s.raise .badMagic (le32At magicBytes 0).toNat (le32At s.magicBuf 0).toNat)
  else readHeader (s.enter .pHeader)

/-- Step 1, the pulls: exactly 4 bytes (R131). -/
def readMagic (s : State) : Host.Outcome State Fault Refusal :=
  match streamRead (magicBytes.length - s.magicBuf.length) s.sin with
  | .waiting got => .next (s.storeMagic got [])
  | .short got rest =>
    .next ((s.storeMagic got rest).raise .sMagic magicBytes.length (s.magicBuf.length + got.length))
  | .complete got rest => readMagicCheck (s.storeMagic got rest)

/-- A running `READ` goes on from the phase it stands in (R33, R255). -/
def resumeRead (s : State) : Host.Outcome State Fault Refusal :=
  match s.phase with
  | .pMagic => readMagic s
  | .pHeader => readHeader s
  | .pCheck => readCheck s
  | .pPayload => readFormat s
  | .pIdle => .next s
  | .pDcheck => .next s
  | .pDblock => .next s
  | .pDone => .next s

/-- `READ` (R130): refused while a command runs (R247), else accepted (R246) and run. -/
def execRead (s : State) : Host.Outcome State Fault Refusal :=
  if s.Busy then .next s.reject else readMagic s.acceptRead

end Sys2Proof.Machine
end

