-- ==== Sys2Proof/Machine/Colour.lean ====
section
/-! DEFINITION. The 5:6:5 to 8:8:8 colour space expander (42_color_expand.md): `CX5`, `CX6`, `CX565`. The functions are
pure (R226); a row run alone leaves its result in the model's own result fields (log entry 8). -/

namespace Sys2Proof.Machine

/-- `CX5(v) = (v*527 + 23) >> 6`, in naturals (R8, R210). -/
def cx5 (v : BitVec 5) : Byte := BitVec.ofNat 8 ((v.toNat * 527 + 23) / 2 ^ 6)

/-- `CX6(v) = (v*259 + 33) >> 6`, in naturals (R8, R211). -/
def cx6 (v : BitVec 6) : Byte := BitVec.ofNat 8 ((v.toNat * 259 + 33) / 2 ^ 6)

/-- The expansion of three channels (R212). -/
def expand (r5 : BitVec 5) (g6 : BitVec 6) (b5 : BitVec 5) : Color888 := ⟨cx5 r5, cx6 g6, cx5 b5⟩

/-- `CX565(c)`, the expansion of a packed colour (R91, R212). -/
def cx565 (c : Half) : Color888 := expand (c.extractLsb' 11 5) (c.extractLsb' 5 6) (c.extractLsb' 0 5)

/-- `CX5` as a row (R210). -/
def execCx5 (v : BitVec 5) (s : State) : Host.Outcome State Fault Refusal := .next { s with chOut := cx5 v }

/-- `CX6` as a row (R211). -/
def execCx6 (v : BitVec 6) (s : State) : Host.Outcome State Fault Refusal := .next { s with chOut := cx6 v }

/-- `CX565` as a row (R212). -/
def execCx565 (r5 : BitVec 5) (g6 : BitVec 6) (b5 : BitVec 5) (s : State) : Host.Outcome State Fault Refusal :=
  .next { s with colOut := expand r5 g6 b5 }

end Sys2Proof.Machine
end

