-- ==== Sys2Proof/Machine/Palette.lean ====
section
/-! DEFINITION. The palette derivations `PAL4` and `PAL3` (`BLK.4C`, `BLK.3C`) and the index lookups `SEL.0` to `SEL.3`
(41_bc1_decode.md). -/

namespace Sys2Proof.Machine

/-- `blend3(a, b)`, the two-thirds blend toward `a`, in naturals, in both values of `BLEND_MODE` (R187). -/
def blend3 (mode : BlendMode) (a b : Byte) : Byte :=
  match mode with
  | .a => BitVec.ofNat 8 ((2 * a.toNat + b.toNat) / 3)
  | .b => BitVec.ofNat 8 (2 * a.toNat / 3 + b.toNat / 3)

/-- `avg2(a, b) = floor((a + b) / 2)`, in naturals (R188). -/
def avg2 (a b : Byte) : Byte := BitVec.ofNat 8 ((a.toNat + b.toNat) / 2)

/-- A function of two channels applied to each channel of two colours; the channels do not interact (R223). -/
def perChannel (f : Byte → Byte → Byte) (a b : Color888) : Color888 := ⟨f a.r b.r, f a.g b.g, f a.b b.b⟩

/-- `PAL4(e0, e1)`, the four-colour palette (R177). -/
def pal4 (mode : BlendMode) (e0 e1 : Color888) : Palette :=
  ⟨e0, e1, perChannel (blend3 mode) e0 e1, perChannel (blend3 mode) e1 e0⟩

/-- `PAL3(e0, e1)`, the three-colour-plus-transparent palette (R178). -/
def pal3 (e0 e1 : Color888) : Palette := ⟨e0, e1, perChannel avg2 e0 e1, black⟩

/-- The palette of a block: the mode test compares the packed endpoints, unsigned (R95, R176). -/
def blockPalette (mode : BlendMode) (color0 color1 : Half) : Palette :=
  if color1 < color0 then pal4 mode (cx565 color0) (cx565 color1) else pal3 (cx565 color0) (cx565 color1)

/-- A block goes into the datapath's registers, with its expanded endpoints and its palette (R40, R175, R176). -/
def State.loadBlock (s : State) (color0 color1 : Half) (indices : Word) (pal : Palette) : State :=
  { s with
    color0 := color0, color1 := color1, indices := indices
    e0 := cx565 color0, e1 := cx565 color1, pal := pal }

/-- A palette entry is selected (R179). -/
def State.select (s : State) (i : BitVec 2) : State := { s with colOut := paletteEntry s.pal i }

/-- `BLK.4C` as a row: the block's palette is `PAL4` (R177). -/
def execBlk4c (color0 color1 : Half) (indices : Word) (s : State) : Host.Outcome State Fault Refusal :=
  .next (s.loadBlock color0 color1 indices (pal4 s.params.blend (cx565 color0) (cx565 color1)))

/-- `BLK.3C` as a row: the block's palette is `PAL3` (R178). -/
def execBlk3c (color0 color1 : Half) (indices : Word) (s : State) : Host.Outcome State Fault Refusal :=
  .next (s.loadBlock color0 color1 indices (pal3 (cx565 color0) (cx565 color1)))

/-- `SEL.0` as a row (R179). -/
def execSel0 (s : State) : Host.Outcome State Fault Refusal := .next (s.select 0)

/-- `SEL.1` as a row (R179). -/
def execSel1 (s : State) : Host.Outcome State Fault Refusal := .next (s.select 1)

/-- `SEL.2` as a row (R179). -/
def execSel2 (s : State) : Host.Outcome State Fault Refusal := .next (s.select 2)

/-- `SEL.3` as a row (R179). -/
def execSel3 (s : State) : Host.Outcome State Fault Refusal := .next (s.select 3)

end Sys2Proof.Machine
end

