-- ==== Sys2Proof/Machine/Decompress.lean ====
section
/-! DEFINITION. The `DECODE` command, the BC1 block decompressor (41_bc1_decode.md). The pixels a block gives depend on the
sampled arguments, on `DBUF` and on `BLEND_MODE` alone (R171); they are computed from these and written to the raster
block by block, pixel by pixel. -/

namespace Sys2Proof.Machine

/-- `color0` of block `i` (R175). -/
def State.blockColor0 (s : State) (i : Nat) : Half :=
  le16 (s.dbufByte (blockAddr i)) (s.dbufByte (blockAddr i + 1))

/-- `color1` of block `i` (R175). -/
def State.blockColor1 (s : State) (i : Nat) : Half :=
  le16 (s.dbufByte (blockAddr i + 2)) (s.dbufByte (blockAddr i + 3))

/-- `indices` of block `i` (R175). -/
def State.blockIndices (s : State) (i : Nat) : Word :=
  le32 (s.dbufByte (blockAddr i + 4)) (s.dbufByte (blockAddr i + 5)) (s.dbufByte (blockAddr i + 6))
    (s.dbufByte (blockAddr i + 7))

/-- Block `i` goes through the datapath's registers (R175, R176). -/
def State.fetchBlock (s : State) (i : Nat) : State :=
  s.loadBlock (s.blockColor0 i) (s.blockColor1 i) (s.blockIndices i)
    (blockPalette s.params.blend (s.blockColor0 i) (s.blockColor1 i))

/-- One pixel of a block whose palette and indices are given: placed, clipped and written (R179 to R182). -/
def writePixel (width height : Word) (pal : Palette) (indices : Word) (i : Nat) (m : Memory) (n : Nat) : Memory :=
  if pixelRow width i n < height.toNat ∧ pixelCol width i n < width.toNat then
    m.writeList (pixelAddr width (pixelRow width i n) (pixelCol width i n)) (colourBytes (sel indices n pal))
  else m

/-- The sixteen pixels of block `i`, in ascending `n` (R180), written into the raster `m`. No block reads the raster. -/
def State.writeBlock (s : State) (m : Memory) (i : Nat) : Memory :=
  (List.range 16).foldl
    (writePixel s.argWidth s.argHeight (blockPalette s.params.blend (s.blockColor0 i) (s.blockColor1 i))
      (s.blockIndices i) i) m

/-- The blocks of a list, in its order, written into the raster `m`. No order can be told from another (R75, R186). -/
def State.writeBlocks (s : State) (order : List Nat) (m : Memory) : Memory := order.foldl s.writeBlock m

/-- The blocks still to be decoded, row-major, from `BIDX` on (R33, R175). -/
def State.blocksLeft (s : State) : List Nat :=
  List.range' s.bidx (gridBlocks s.argWidth s.argHeight - s.bidx)

/-- The walk stands at pixel `n` of block `i` (R33). -/
def State.atPixel (s : State) (i : Nat) (n : BitVec 4) : State := { s with bidx := i, pix := n }

/-- The raster after a walk. -/
def State.withRaster (s : State) (m : Memory) : State := { s with rbuf := m }

/-- The datapath's registers after the block walk hold the last block and its last pixel (log entry 15); they are not
visible (R40). -/
def State.afterWalk (s : State) : State :=
  ((s.fetchBlock (gridBlocks s.argWidth s.argHeight - 1)).select
    (indexEntry (s.blockIndices (gridBlocks s.argWidth s.argHeight - 1)) 15)).atPixel
    (gridBlocks s.argWidth s.argHeight - 1) 15

/-- Steps 3 to 8: every block of the grid, then completion (R175 to R189). -/
def decodeBlocks (s : State) : Host.Outcome State Fault Refusal :=
  .next (s.afterWalk.withRaster (s.writeBlocks s.blocksLeft s.rbuf)).completeDecode

/-- Steps 1 and 2: the two length checks, before any block is fetched (R172, R174, R236), and the capacity (R70,
log entry 10). -/
def decodeCheck (s : State) : Host.Outcome State Fault Refusal :=
  if overCap s.params s.argDatalen then .refused (.overCapacity s.argDatalen)
  else if s.argDatalen % blockBytes ≠ 0 then .next (s.raise .badBlockLength 0 (s.argDatalen % blockBytes))
  else if s.argDatalen < gridBytes s.argWidth s.argHeight then
    .next (s.raise .blockUnderrun (gridBytes s.argWidth s.argHeight) s.argDatalen)
  else if overCap s.params (rasterBytes s.argWidth s.argHeight) then
    .refused (.overCapacity (rasterBytes s.argWidth s.argHeight))
  else decodeBlocks (s.enter .pDblock)

/-- A running `DECODE` goes on from the phase it stands in (R33). -/
def resumeDecode (s : State) : Host.Outcome State Fault Refusal :=
  match s.phase with
  | .pDcheck => decodeCheck s
  | .pDblock => decodeBlocks s
  | .pIdle => .next s
  | .pMagic => .next s
  | .pHeader => .next s
  | .pCheck => .next s
  | .pPayload => .next s
  | .pDone => .next s

/-- `DECODE` (R170): refused while a command runs (R247), else accepted (R246) and run to its completion (R255). -/
def execDecode (s : State) : Host.Outcome State Fault Refusal :=
  if s.Busy then .next s.reject else decodeCheck s.acceptDecode

end Sys2Proof.Machine
end

