-- ==== Sys2Proof/Machine/Dispatch.lean ====
section
/-! DEFINITION. What each instruction does: one arm per constructor of Instr, each a direct call of its meaning. -/

namespace Sys2Proof.Machine

def exec (i : Instr) (s : State) : Host.Outcome State Fault Refusal :=
  match i with
  | .nop => Sys2Proof.Machine.execNop s
  | .read => Sys2Proof.Machine.execRead s
  | .decode => Sys2Proof.Machine.execDecode s
  | .cmdRsv3 => Sys2Proof.Machine.execCmdRsv3 s
  | .cmdRsvhi _ _ => Sys2Proof.Machine.execCmdRsvhi s
  | .cx5 v => Sys2Proof.Machine.execCx5 v s
  | .cx6 v => Sys2Proof.Machine.execCx6 v s
  | .cx565 r5 g6 b5 => Sys2Proof.Machine.execCx565 r5 g6 b5 s
  | .blk4c color0 color1 indices => Sys2Proof.Machine.execBlk4c color0 color1 indices s
  | .blk3c color0 color1 indices => Sys2Proof.Machine.execBlk3c color0 color1 indices s
  | .sel0 => Sys2Proof.Machine.execSel0 s
  | .sel1 => Sys2Proof.Machine.execSel1 s
  | .sel2 => Sys2Proof.Machine.execSel2 s
  | .sel3 => Sys2Proof.Machine.execSel3 s
  | .fmtBc1 _ _ => Sys2Proof.Machine.execFmtBc1 s
  | .fmtUnsup _ fourCc => Sys2Proof.Machine.execFmtUnsup fourCc s
  | .fmtRgb32 _ _ => Sys2Proof.Machine.execFmtRgb32 s
  | .fmtRgb24 _ _ => Sys2Proof.Machine.execFmtRgb24 s

end Sys2Proof.Machine
end

