-- ==== Sys2Proof/Machine/Fetch.lean ====
section
/-! DEFINITION. Where the next instruction comes from: the event at the head of `inbox`, or none, and then the core goes
on with the command it runs. -/

namespace Sys2Proof.Machine

/-- What a step is to do. -/
inductive Fetched where
  /-- run an instruction in a state from which its event is taken away -/
  | run (i : Instr) (s : State)
  /-- no instruction: the step's outcome -/
  | other (o : Host.Outcome State Fault Refusal)

/-- The core goes on by itself: a running command proceeds; between commands the core rests with all state retained
(R253, R255). -/
def coreStep (s : State) : Host.Outcome State Fault Refusal :=
  if s.ReadRunning then resumeRead s
  else if s.DecodeRunning then resumeDecode s
  else .next s

/-- A word of a format reaches the decoder. -/
def fetchWord (f : Format) (w : Nat) (s : State) : Fetched :=
  match decodeWord s.params f w with
  | .instr i => .run i s
  | .rejected e => .other (.refused (.undecodable e))

/-- A host write of a register (R21, R43): a write of `CMD` is a command issue; `D_*` are ignored while `BUSY`; the
others are read-only. -/
def fetchWrite (rw : RegWrite) (s : State) : Fetched :=
  match rw with
  | .cmd w => fetchWord .cmd w.toNat s
  | .dWidth v => .other (.next (s.writeDWidth v))
  | .dHeight v => .other (.next (s.writeDHeight v))
  | .dDatalen v => .other (.next (s.writeDDatalen v))
  | .readOnly _ _ => .other (.next s)

/-- A host write of one byte of `DBUF` (R36, R43): never while a `DECODE` is `BUSY` (R281), never beyond the capacity. -/
def writeDbufEvent (a : Nat) (b : Byte) (s : State) : Host.Outcome State Fault Refusal :=
  if s.DecodeRunning then .fault .dbufWriteDuringDecode
  else if overCap s.params (a + 1) then .fault .noSuchDbufByte
  else .next { s with dbuf := s.dbuf.write a b }

/-- The host re-positions or replaces the stream source (R284): never while a `READ` is `BUSY` (R283). -/
def attachEvent (items : List StreamItem) (s : State) : Host.Outcome State Fault Refusal :=
  if s.ReadRunning then .fault .streamReplacedDuringRead else .next { s with sin := items }

/-- What an event asks for, in the state from which it is taken away. -/
def fetchEvent (e : Event) (s : State) : Fetched :=
  match e with
  | .idle => .other (coreStep s)
  | .write rw => fetchWrite rw s
  | .writeDbuf a b => .other (writeDbufEvent a b s)
  | .readReg _ => .other (.next s)
  | .readByte _ _ => .other (.next s)
  | .answer i => .other (.next { s with sin := s.sin ++ [i] })
  | .attach items => .other (attachEvent items s)
  | .reset => .other (.next s.resetNow)
  | .present f w => fetchWord f w s

/-- What the next step is to do: the next event, or, with nothing queued, the core by itself. -/
def fetch (s : State) : Fetched :=
  match s.inbox with
  | [] => .other (coreStep s)
  | e :: es => fetchEvent e { s with inbox := es }

/-- The event by which a word of the opcode table reaches the decoder: a host write of `CMD`, or the model's own test
port for a datapath row. -/
def tableEvent (nbits w : Nat) : Event :=
  match tableFormat nbits w with
  | some .cmd => .write (.cmd (BitVec.ofNat 32 w))
  | some f => .present f w
  | none => .idle

end Sys2Proof.Machine
end

