-- ==== Sys2Proof/Machine/Step.lean ====
section
/-! DEFINITION. One step of the machine, and where the host of this pipeline puts a word to be run. -/

namespace Sys2Proof.Machine

/-- One step: the next event is taken; if it brings an instruction, the instruction runs. -/
def step (s : State) : Host.Outcome State Fault Refusal :=
  match fetch s with
  | .run i t => exec i t
  | .other o => o

/-- `s` with the word queued as the very next event. -/
def State.withFetchWord (s : State) (nbits w : Nat) : State := { s with inbox := tableEvent nbits w :: s.inbox }

end Sys2Proof.Machine
end

