-- ==== Sys2Proof/Machine/Whole.lean ====
section
/-! DEFINITION. The two commands as one function each, the way R149 and R190 write them: what the statements compare the
machine's steps with. No step of the machine uses them. -/

namespace Sys2Proof.Machine

/-- What ends the bytes of a stream (R149's `t`). -/
inductive StreamEnd where
  | ended
  | failed
  deriving DecidableEq, Repr

/-- The stream's answer at its end. -/
def StreamEnd.item : StreamEnd → StreamItem
  | .ended => .endOfStream
  | .failed => .fail

/-- The result of R149. -/
inductive ReadResult where
  | err (c : Cause) (exp fnd : Nat)
  | ok (width height : Word) (fmt : TexFormat) (payload : List Byte)
  deriving DecidableEq, Repr

/-- The header of a stream's bytes: `h = S[4..127]`. -/
def headerOf (S : List Byte) : List Byte := (S.drop 4).take 124

/-- R149's `read(S, t)`. -/
def wholeRead (p : Params) (S : List Byte) (t : StreamEnd) : ReadResult :=
  if S.length < 4 then .err .sMagic 4 S.length
  else if S.take 4 ≠ magicBytes then .err .badMagic (le32At magicBytes 0).toNat (le32At S 0).toNat
  else if S.length < 128 then .err .sHeader 124 (S.length - 4)
  else if (hSize (headerOf S)).toNat ≠ 124 then .err .badHeaderSize 124 (hSize (headerOf S)).toNat
  else if (hPfSize (headerOf S)).toNat ≠ 32 then .err .badPfSize 32 (hPfSize (headerOf S)).toNat
  else if hPfFlags (headerOf S) &&& p.pfFourcc ≠ 0 then
    if hFourCc (headerOf S) ≠ p.fourccBc1 then
      .err .unsupportedFormat p.fourccBc1.toNat (hFourCc (headerOf S)).toNat
    else if t = .failed then .err .sPayload 0 (S.length - 128)
    else .ok (hWidth (headerOf S)) (hHeight (headerOf S)) .bc1 (S.drop 128)
  else if hPfFlags (headerOf S) &&& p.alphaSelMask ≠ 0 then
    if S.length - 128 < (hWidth (headerOf S)).toNat * (hHeight (headerOf S)).toNat * 4 then
      .err .sPayload ((hWidth (headerOf S)).toNat * (hHeight (headerOf S)).toNat * 4) (S.length - 128)
    else .ok (hWidth (headerOf S)) (hHeight (headerOf S)) .uncompressed32
      ((S.drop 128).take ((hWidth (headerOf S)).toNat * (hHeight (headerOf S)).toNat * 4))
  else
    if S.length - 128 < (hWidth (headerOf S)).toNat * (hHeight (headerOf S)).toNat * 3 then
      .err .sPayload ((hWidth (headerOf S)).toNat * (hHeight (headerOf S)).toNat * 3) (S.length - 128)
    else .ok (hWidth (headerOf S)) (hHeight (headerOf S)) .uncompressed24
      ((S.drop 128).take ((hWidth (headerOf S)).toNat * (hHeight (headerOf S)).toNat * 3))

/-- The stream passes every check before the payload (R131 to R141): the command comes to its payload. -/
def reachesPayload (p : Params) (S : List Byte) : Bool :=
  decide (128 ≤ S.length) && decide (S.take 4 = magicBytes) && decide ((hSize (headerOf S)).toNat = 124) &&
    decide ((hPfSize (headerOf S)).toNat = 32) &&
    (keyFormat p (hPfFlags (headerOf S)) (hFourCc (headerOf S))).isSome

/-- The bytes of `PBUF` a `READ` of the stream needs (R70, R143, R144): none before it comes to its payload. -/
def readNeed (p : Params) (S : List Byte) : Nat :=
  if reachesPayload p S then
    match keyFormat p (hPfFlags (headerOf S)) (hFourCc (headerOf S)) with
    | none => 0
    | some .bc1 => S.length - 128
    | some .uncompressed24 => payloadLength (hWidth (headerOf S)) (hHeight (headerOf S)) .uncompressed24
    | some .uncompressed32 => payloadLength (hWidth (headerOf S)) (hHeight (headerOf S)) .uncompressed32
  else 0

/-- R147's table: how many bytes a `READ` of the stream obtains, by its result. -/
def bytesConsumed (S : List Byte) : ReadResult → Nat
  | .err .sMagic _ _ => S.length
  | .err .badMagic _ _ => 4
  | .err .sHeader _ _ => S.length
  | .err .badHeaderSize _ _ => 128
  | .err .badPfSize _ _ => 128
  | .err .unsupportedFormat _ _ => 128
  | .err .sPayload _ _ => S.length
  | .err .badBlockLength _ _ => 0
  | .err .blockUnderrun _ _ => 0
  | .ok _ _ _ payload => 128 + payload.length

/-- R147: the outcomes in which the stream's `End` or `Fail` is consumed too. -/
def endConsumed : ReadResult → Bool
  | .err .sMagic _ _ => true
  | .err .badMagic _ _ => false
  | .err .sHeader _ _ => true
  | .err .badHeaderSize _ _ => false
  | .err .badPfSize _ _ => false
  | .err .unsupportedFormat _ _ => false
  | .err .sPayload _ _ => true
  | .err .badBlockLength _ _ => false
  | .err .blockUnderrun _ _ => false
  | .ok _ _ .bc1 _ => true
  | .ok _ _ .uncompressed24 _ => false
  | .ok _ _ .uncompressed32 _ => false

/-- R190's per-pixel form: the colour of raster pixel `(R, C)`, from the arguments and the input bytes `data`. -/
def wholePixel (mode : BlendMode) (data : Nat → Byte) (width : Word) (R C : Nat) : Color888 :=
  let i := R / 4 * gridCells width + C / 4
  let c0 := le16 (data (8 * i)) (data (8 * i + 1))
  let c1 := le16 (data (8 * i + 2)) (data (8 * i + 3))
  let ix := le32 (data (8 * i + 4)) (data (8 * i + 5)) (data (8 * i + 6)) (data (8 * i + 7))
  sel ix (4 * (R % 4) + C % 4) (blockPalette mode c0 c1)

end Sys2Proof.Machine
end

