-- ==== Sys2Proof/Safety.lean ====
section
/-! DEFINITION. What a legal state is: the invariants the statements speak of. Each holds at reset and is kept by every
step; each is a property the spec promises the host or that its rules rest on. -/

namespace Sys2Proof.Machine

/-- Every buffer is in canonical form. -/
def State.BuffersCanonical (s : State) : Prop :=
  s.dbuf.wf = true ∧ s.pbuf.wf = true ∧ s.rbuf.wf = true

/-- `STATUS.op` is 0 to 2, and it is 0 exactly while no command has been accepted since reset (R22). -/
def State.OpLegal (s : State) : Prop := s.op ≠ 3 ∧ (s.state = .idle ↔ s.op = 0)

/-- The causes a command can raise (R233). -/
def causesOf : BitVec 2 → List Cause
  | 1 => [.badMagic, .badHeaderSize, .badPfSize, .unsupportedFormat, .sMagic, .sHeader, .sPayload]
  | 2 => [.badBlockLength, .blockUnderrun]
  | _ => []

/-- The error registers hold a cause of the failed command after a failure, and zeros otherwise (R23, R24, R25, R233). -/
def State.ErrorsLegal (s : State) : Prop :=
  if s.state = .doneErr then ∃ c ∈ causesOf s.op, s.errKind = c.kind ∧ s.errCode = c.code
  else s.errKind = .none ∧ s.errCode = 0 ∧ s.errExp = 0 ∧ s.errFnd = 0

/-- The four registers of the Texture are zero. -/
def State.NoTexture (s : State) : Prop :=
  s.tWidth = 0 ∧ s.tHeight = 0 ∧ s.tFormat = .uncompressed24 ∧ s.tPaylen = 0

/-- No partial result is published: the result registers of a command that has not succeeded are zero (R26, R32, R240). -/
def State.ResultsLegal (s : State) : Prop :=
  (s.op = 1 ∧ s.state ≠ .doneOk → s.NoTexture) ∧
  (s.op = 2 ∧ s.state ≠ .doneOk → s.dRaslen = 0) ∧
  (s.op = 0 → s.NoTexture ∧ s.spos = 0 ∧ s.dRaslen = 0)

/-- The handshake between host and core (R22 to R32). -/
def State.HandshakeLegal (s : State) : Prop := s.OpLegal ∧ s.ErrorsLegal ∧ s.ResultsLegal

/-- Every byte below `n` has been written. -/
def Memory.FilledTo (m : Memory) (n : Nat) : Prop := ∀ a, a < n → (m.read a).isSome = true

/-- What a `READ` that waits in its payload phase stands on: the whole header, a format, the payload so far in `PBUF`,
for an uncompressed texture at least one byte to come, and no more bytes than the capacity (R70, R143, R144). -/
def State.PayloadProgress (s : State) : Prop :=
  s.hdrBuf.length = 124 ∧ 128 ≤ s.spos ∧ s.pbuf.FilledTo s.payloadGot ∧
  (hSize s.hdrBuf).toNat = 124 ∧ (hPfSize s.hdrBuf).toNat = 32 ∧
  match keyFormat s.params (hPfFlags s.hdrBuf) (hFourCc s.hdrBuf) with
  | none => False
  | some .bc1 => overCap s.params s.payloadGot = false
  | some .uncompressed24 =>
    s.payloadGot < payloadLength (hWidth s.hdrBuf) (hHeight s.hdrBuf) .uncompressed24 ∧
      overCap s.params (payloadLength (hWidth s.hdrBuf) (hHeight s.hdrBuf) .uncompressed24) = false
  | some .uncompressed32 =>
    s.payloadGot < payloadLength (hWidth s.hdrBuf) (hHeight s.hdrBuf) .uncompressed32 ∧
      overCap s.params (payloadLength (hWidth s.hdrBuf) (hHeight s.hdrBuf) .uncompressed32) = false

/-- Where a running command can rest: only a `READ` rests, waiting for the stream, and `SPOS` counts the bytes it has
obtained (R33, R255). -/
def State.ReadProgress (s : State) : Prop :=
  s.op = 1 ∧
  ((s.phase = .pMagic ∧ s.magicBuf.length < 4 ∧ s.spos = s.magicBuf.length ∧ s.hdrBuf = []) ∨
   (s.phase = .pHeader ∧ s.magicBuf = magicBytes ∧ s.hdrBuf.length < 124 ∧ s.spos = 4 + s.hdrBuf.length) ∨
   (s.phase = .pPayload ∧ s.magicBuf = magicBytes ∧ s.PayloadProgress))

/-- `PHASE` agrees with `STATUS.state` (R33, R245). -/
def State.PhaseLegal (s : State) : Prop :=
  match s.state with
  | .idle => s.phase = .pIdle
  | .busy => s.ReadProgress
  | .doneOk => s.phase = .pDone
  | .doneErr => s.phase = .pDone

/-- The Texture the registers describe is whole (R28, R37, R41, R152): `PBUF` holds every byte below `T_PAYLEN`, and an
uncompressed payload has exactly the length its dimensions and format give; after a successful `READ`, `SPOS` is the
first 128 bytes and the payload (R147). -/
def State.TextureWhole (s : State) : Prop :=
  s.pbuf.FilledTo s.tPaylen ∧
  (s.tFormat ≠ .bc1 → s.tPaylen = s.tWidth.toNat * s.tHeight.toNat * (3 + (formatTag s.tFormat).toNat)) ∧
  (s.op = 1 ∧ s.state = .doneOk → s.spos = 128 + s.tPaylen)

/-- The raster is whole (R32, R38, R41): `RBUF` holds every byte below `D_RASLEN`, and after a successful `DECODE`
`D_RASLEN` is `width * height * 3` as sampled. -/
def State.RasterWhole (s : State) : Prop :=
  s.rbuf.FilledTo s.dRaslen ∧
  (s.op = 2 ∧ s.state = .doneOk → s.dRaslen = s.argWidth.toNat * s.argHeight.toNat * 3)

/-- The length registers that a command's own product bounds fit `LEN_W = 66` bits (R9, R221). -/
def State.LengthsFit (s : State) : Prop :=
  s.dDatalen < 2 ^ 66 ∧ s.argDatalen < 2 ^ 66 ∧ s.dRaslen < 2 ^ 66 ∧ s.errExp < 2 ^ 66 ∧
  (s.tFormat ≠ .bc1 → s.tPaylen < 2 ^ 66)

end Sys2Proof.Machine
end

