-- ==== Sys2Proof/Certificates/Slice0/Obligations.lean ====
section
/-! DEFINITION. The statements about the machine, each from the numbered rules of the spec. Where a statement speaks of a
field or an event that is the model's own, its docstring names the log entry. -/

open Sys2Proof Sys2Proof.Machine

namespace Sys2Proof.Machine

/-- `ERRKIND` and `ERRCODE` of each cause, as R231 and R232 number them. -/
def causeNumbers : Cause → Nat × Nat
  | .badMagic => (1, 1)
  | .badHeaderSize => (1, 2)
  | .badPfSize => (1, 3)
  | .unsupportedFormat => (1, 4)
  | .badBlockLength => (1, 5)
  | .blockUnderrun => (1, 6)
  | .sMagic => (2, 1)
  | .sHeader => (2, 2)
  | .sPayload => (2, 3)

/-- The tag of each texture format, as R27 and R145 number them. -/
def tagNumber : TexFormat → Nat
  | .uncompressed24 => 0
  | .uncompressed32 => 1
  | .bc1 => 2

/-- The two-thirds blend of R187 on naturals. -/
def blendNat : BlendMode → Nat → Nat → Nat
  | .a, a, b => (2 * a + b) / 3
  | .b, a, b => 2 * a / 3 + b / 3

/-- A command has ended `DONE_ERR` with this cause, and the host reads its numbers (R231, R232, R240). -/
def State.FailedWith (t : State) (c : Cause) (x f : Nat) : Prop :=
  t.state = .doneErr ∧ t.hostReg .errKind = some (causeNumbers c).1 ∧
  t.hostReg .errCode = some (causeNumbers c).2 ∧ t.hostReg .errExp = some x ∧ t.hostReg .errFnd = some f

/-- A command has ended `DONE_OK`, its error registers zero (R145, R189). -/
def State.Succeeded (t : State) : Prop :=
  t.state = .doneOk ∧ t.hostReg .errKind = some 0 ∧ t.hostReg .errCode = some 0 ∧
  t.hostReg .errExp = some 0 ∧ t.hostReg .errFnd = some 0

/-- The host reads no Texture: its four registers are zero, and no byte of `PBUF` has a value. -/
def State.ReadsNoTexture (t : State) : Prop :=
  t.hostReg .tWidth = some 0 ∧ t.hostReg .tHeight = some 0 ∧ t.hostReg .tFormat = some 0 ∧
  t.hostReg .tPaylen = some 0 ∧ ∀ a, t.hostByte .pbuf a = none

/-- The head event is a reset. -/
def State.ResetNext (s : State) : Prop := ∃ es, s.inbox = .reset :: es

/-- The next step runs this instruction. -/
def State.RunsNext (s : State) (i : Instr) : Prop := ∃ t, fetch s = .run i t

end Sys2Proof.Machine

/-! ### Command words, status and reset -/

/-- R248: a write of 0 to `CMD` has no effect in any state. -/
def Obligations.NopHasNoEffect : Prop :=
  ∀ s : State, exec .nop s = .next s ∧
    ∀ es, s.inbox = .write (.cmd 0) :: es → step s = .next { s with inbox := es }

/-- R247: a reserved word in any state, and `READ` and `DECODE` while `BUSY`, set `cmd_rej` and nothing else; as
instructions, and as words written to `CMD`. -/
def Obligations.RefusedCommandsSetCmdRejOnly : Prop :=
  ∀ s : State,
    exec .cmdRsv3 s = .next { s with cmdRej := true } ∧
    (∀ op zero, exec (.cmdRsvhi op zero) s = .next { s with cmdRej := true }) ∧
    (s.state = .busy →
      exec .read s = .next { s with cmdRej := true } ∧ exec .decode s = .next { s with cmdRej := true }) ∧
    ∀ (w : Word) (es : List Event), s.inbox = .write (.cmd w) :: es →
      (w = 3 ∨ w.extractLsb' 2 30 ≠ 0 ∨ ((w = 1 ∨ w = 2) ∧ s.state = .busy)) →
      step s = .next { s with inbox := es, cmdRej := true }

/-- R22: the fields of `STATUS` as the host reads it. -/
def Obligations.StatusReadsItsFields : Prop :=
  ∀ s : State, ∃ w : Word, s.hostReg .status = some w.toNat ∧
    (w.extractLsb' 0 2).toNat =
      (match s.state with | .idle => 0 | .busy => 1 | .doneOk => 2 | .doneErr => 3) ∧
    w.extractLsb' 2 2 = s.op ∧ w.getLsbD 4 = s.cmdRej ∧ w.extractLsb' 5 27 = 0

/-- R42, R270: a reset, in any state, leaves every register 0, `IDLE`, `P_IDLE` and no specified byte in any buffer; the
core then rests. The queue of events and the parameters are the model's own (log entries 1 and 3). -/
def Obligations.ResetClearsEveryRegister : Prop :=
  ∀ (s : State) (es : List Event), s.inbox = .reset :: es →
    ∃ t, step s = .next t ∧ (∀ r, t.hostReg r = some 0) ∧ t.state = .idle ∧ t.phase = .pIdle ∧
      (∀ sp a, t.hostByte sp a = none) ∧ coreStep t = .next t ∧ t.params = s.params ∧ t.inbox = es

/-- R42: the state `State.reset` is that of R42, and it meets every invariant stated here. -/
def Obligations.ResetStateIsLegal : Prop :=
  (∀ r, State.reset.hostReg r = some 0) ∧ State.reset.state = .idle ∧ State.reset.phase = .pIdle ∧
  (∀ sp a, State.reset.hostByte sp a = none) ∧ State.reset.BuffersCanonical ∧ State.reset.HandshakeLegal ∧
  State.reset.PhaseLegal ∧ State.reset.TextureWhole ∧ State.reset.RasterWhole ∧ State.reset.LengthsFit

/-! ### The colour expander -/

/-- R210, R211, R212: the three expansions, in naturals. -/
def Obligations.ChannelExpansionFormulas : Prop :=
  (∀ v : BitVec 5, (cx5 v).toNat = (v.toNat * 527 + 23) >>> 6) ∧
  (∀ v : BitVec 6, (cx6 v).toNat = (v.toNat * 259 + 33) >>> 6) ∧
  ∀ c : Half, (cx565 c).r.toNat = (c.toNat / 2 ^ 11 * 527 + 23) >>> 6 ∧
    (cx565 c).g.toNat = (c.toNat / 2 ^ 5 % 2 ^ 6 * 259 + 33) >>> 6 ∧
    (cx565 c).b.toNat = (c.toNat % 2 ^ 5 * 527 + 23) >>> 6

/-- R214: the complete tables. -/
def Obligations.ExpansionTables : Prop :=
  (List.range 32).map (fun v => (cx5 (BitVec.ofNat 5 v)).toNat) =
    [0, 8, 16, 25, 33, 41, 49, 58, 66, 74, 82, 90, 99, 107, 115, 123,
     132, 140, 148, 156, 165, 173, 181, 189, 197, 206, 214, 222, 230, 239, 247, 255] ∧
  (List.range 64).map (fun v => (cx6 (BitVec.ofNat 6 v)).toNat) =
    [0, 4, 8, 12, 16, 20, 24, 28, 32, 36, 40, 45, 49, 53, 57, 61,
     65, 69, 73, 77, 81, 85, 89, 93, 97, 101, 105, 109, 113, 117, 121, 125,
     130, 134, 138, 142, 146, 150, 154, 158, 162, 166, 170, 174, 178, 182, 186, 190,
     194, 198, 202, 206, 210, 215, 219, 223, 227, 231, 235, 239, 243, 247, 251, 255]

/-- R213, R215: the expansion is round-half-up of `v*255/31` and `v*255/63`, and differs from bit replication at exactly
fourteen inputs. -/
def Obligations.ExpansionIsNotBitReplication : Prop :=
  (∀ v : BitVec 5, (cx5 v).toNat = (2 * (v.toNat * 255) + 31) / (2 * 31) ∧
    ((cx5 v).toNat = v.toNat * 8 + v.toNat / 4 ↔ v.toNat ∉ [3, 7, 24, 28])) ∧
  ∀ v : BitVec 6, (cx6 v).toNat = (2 * (v.toNat * 255) + 63) / (2 * 63) ∧
    ((cx6 v).toNat = v.toNat * 4 + v.toNat / 16 ↔ v.toNat ∉ [11, 12, 13, 14, 15, 48, 49, 50, 51, 52])

/-- R210, R211, R212 as rows: each completes in every state, leaves its result in the model's own result field (log
entry 8) and changes nothing else. -/
def Obligations.ExpansionRowsComplete : Prop :=
  ∀ s : State,
    (∀ v, ∃ b : Byte, exec (.cx5 v) s = .next { s with chOut := b } ∧ b.toNat = (v.toNat * 527 + 23) / 64) ∧
    (∀ v, ∃ b : Byte, exec (.cx6 v) s = .next { s with chOut := b } ∧ b.toNat = (v.toNat * 259 + 33) / 64) ∧
    ∀ r5 g6 b5, ∃ c : Color888, exec (.cx565 r5 g6 b5) s = .next { s with colOut := c } ∧
      c.r.toNat = (r5.toNat * 527 + 23) / 64 ∧ c.g.toNat = (g6.toNat * 259 + 33) / 64 ∧
      c.b.toNat = (b5.toNat * 527 + 23) / 64

/-! ### Palettes and index lookup -/

/-- R177, R187: the four-colour palette, in both blend modes. -/
def Obligations.FourColourPalette : Prop :=
  ∀ (mode : BlendMode) (e0 e1 : Color888),
    (pal4 mode e0 e1).p0 = e0 ∧ (pal4 mode e0 e1).p1 = e1 ∧
    (pal4 mode e0 e1).p2.r.toNat = blendNat mode e0.r.toNat e1.r.toNat ∧
    (pal4 mode e0 e1).p2.g.toNat = blendNat mode e0.g.toNat e1.g.toNat ∧
    (pal4 mode e0 e1).p2.b.toNat = blendNat mode e0.b.toNat e1.b.toNat ∧
    (pal4 mode e0 e1).p3.r.toNat = blendNat mode e1.r.toNat e0.r.toNat ∧
    (pal4 mode e0 e1).p3.g.toNat = blendNat mode e1.g.toNat e0.g.toNat ∧
    (pal4 mode e0 e1).p3.b.toNat = blendNat mode e1.b.toNat e0.b.toNat

/-- R178, R188: the three-colour palette; entry 3 is black. -/
def Obligations.ThreeColourPalette : Prop :=
  ∀ e0 e1 : Color888,
    (pal3 e0 e1).p0 = e0 ∧ (pal3 e0 e1).p1 = e1 ∧
    (pal3 e0 e1).p2.r.toNat = (e0.r.toNat + e1.r.toNat) / 2 ∧
    (pal3 e0 e1).p2.g.toNat = (e0.g.toNat + e1.g.toNat) / 2 ∧
    (pal3 e0 e1).p2.b.toNat = (e0.b.toNat + e1.b.toNat) / 2 ∧
    (pal3 e0 e1).p3.r = 0 ∧ (pal3 e0 e1).p3.g = 0 ∧ (pal3 e0 e1).p3.b = 0

/-- R187: the two blend modes, how far apart they are and where, and what they make of equal channels. -/
def Obligations.BlendModesDifferByAtMostOne : Prop :=
  ∀ a b : Byte,
    (blend3 .a a b).toNat = (2 * a.toNat + b.toNat) / 3 ∧
    (blend3 .b a b).toNat = 2 * a.toNat / 3 + b.toNat / 3 ∧
    (blend3 .b a b).toNat ≤ (blend3 .a a b).toNat ∧
    (blend3 .a a b).toNat ≤ (blend3 .b a b).toNat + 1 ∧
    (blend3 .a a b ≠ blend3 .b a b ↔ 3 ≤ 2 * a.toNat % 3 + b.toNat % 3) ∧
    blend3 .a a a = a ∧
    (blend3 .b a a).toNat = (if a.toNat % 3 = 0 then a.toNat else a.toNat - 1)

/-- R95, R176: a block's mode is the unsigned comparison of its packed endpoints, equality giving the three-colour mode;
the fields are those of R93. -/
def Obligations.BlockModeComparesPackedEndpoints : Prop :=
  ∀ (p : Params) (q : BitVec 64),
    decodeWord p .bc1blk q.toNat =
      .instr (if q.toNat % 2 ^ 16 > q.toNat / 2 ^ 16 % 2 ^ 16
        then .blk4c (BitVec.ofNat 16 q.toNat) (BitVec.ofNat 16 (q.toNat / 2 ^ 16)) (BitVec.ofNat 32 (q.toNat / 2 ^ 32))
        else .blk3c (BitVec.ofNat 16 q.toNat) (BitVec.ofNat 16 (q.toNat / 2 ^ 16))
          (BitVec.ofNat 32 (q.toNat / 2 ^ 32))) ∧
    ∀ (mode : BlendMode) (c0 c1 : Half),
      blockPalette mode c0 c1 =
        if c0.toNat > c1.toNat then pal4 mode (cx565 c0) (cx565 c1) else pal3 (cx565 c0) (cx565 c1)

/-- R177, R178 as rows: a block goes into the datapath's registers with its expanded endpoints and its palette; nothing
else changes (R40, R176). The rows are run through the model's own port (log entry 8). -/
def Obligations.BlockRowsComplete : Prop :=
  ∀ (s : State) (c0 c1 : Half) (ix : Word),
    exec (.blk4c c0 c1 ix) s = .next { s with
      color0 := c0, color1 := c1, indices := ix, e0 := cx565 c0, e1 := cx565 c1
      pal := pal4 s.params.blend (cx565 c0) (cx565 c1) } ∧
    exec (.blk3c c0 c1 ix) s = .next { s with
      color0 := c0, color1 := c1, indices := ix, e0 := cx565 c0, e1 := cx565 c1
      pal := pal3 (cx565 c0) (cx565 c1) }

/-- R94, R179: entry `n` of the indices is the pair of bits at `2n`, and it selects that palette entry (R96). -/
def Obligations.IndexSelectsPaletteEntry : Prop :=
  ∀ (ix : Word) (n : Nat) (pal : Palette), n < 16 →
    sel ix n pal =
      (if ix.toNat / 2 ^ (2 * n) % 4 = 0 then pal.p0
       else if ix.toNat / 2 ^ (2 * n) % 4 = 1 then pal.p1
       else if ix.toNat / 2 ^ (2 * n) % 4 = 2 then pal.p2
       else pal.p3)

/-- R179 as rows: each `SEL.i` leaves palette entry `i` in the model's own result field (log entry 8) and changes nothing
else. -/
def Obligations.SelectRowsComplete : Prop :=
  ∀ s : State,
    exec .sel0 s = .next { s with colOut := s.pal.p0 } ∧ exec .sel1 s = .next { s with colOut := s.pal.p1 } ∧
    exec .sel2 s = .next { s with colOut := s.pal.p2 } ∧ exec .sel3 s = .next { s with colOut := s.pal.p3 }

/-! ### The pixel-format key -/

/-- R101: every key selects exactly one of the four rows, by the conditions of R140 to R142 in their priority order. -/
def Obligations.KeySelectsExactlyOneRow : Prop :=
  ∀ (p : Params) (flags fourCc : Word),
    (([.fmtBc1 flags fourCc, .fmtUnsup flags fourCc, .fmtRgb32 flags fourCc, .fmtRgb24 flags fourCc] :
        List Instr).filter (Instr.wf p)).length = 1 ∧
    decodeWord p .pfkey (fourCc ++ flags).toNat =
      .instr (if flags &&& p.pfFourcc ≠ 0 ∧ fourCc = p.fourccBc1 then .fmtBc1 flags fourCc
        else if flags &&& p.pfFourcc ≠ 0 then .fmtUnsup flags fourCc
        else if flags &&& p.alphaSelMask ≠ 0 then .fmtRgb32 flags fourCc
        else .fmtRgb24 flags fourCc) ∧
    keyFormat p flags fourCc =
      (if flags &&& p.pfFourcc ≠ 0 ∧ fourCc = p.fourccBc1 then some .bc1
        else if flags &&& p.pfFourcc ≠ 0 then none
        else if flags &&& p.alphaSelMask ≠ 0 then some .uncompressed32
        else some .uncompressed24)

/-- R140, R142 as rows: each selects its format, in a register no host sees, and changes nothing else (log entry 8). -/
def Obligations.FormatRowsComplete : Prop :=
  ∀ (s : State) (flags fourCc : Word),
    exec (.fmtBc1 flags fourCc) s = .next { s with fmtSel := .bc1 } ∧
    exec (.fmtRgb32 flags fourCc) s = .next { s with fmtSel := .uncompressed32 } ∧
    exec (.fmtRgb24 flags fourCc) s = .next { s with fmtSel := .uncompressed24 }

/-- R141 as a row: it ends a `READ` that stands at the check of its key, in `P_CHECK`, with `UNSUPPORTED_FORMAT`; that
nothing happens where no `READ` stands there is the model's choice (log entry 8). -/
def Obligations.UnsupportedRowEndsTheRunningRead : Prop :=
  ∀ (s : State) (flags fourCc : Word),
    (s.ReadRunning → s.phase = .pCheck → ∃ t, exec (.fmtUnsup flags fourCc) s = .next t ∧
      t.FailedWith .unsupportedFormat s.params.fourccBc1.toNat fourCc.toNat ∧ t.phase = .pDone ∧ t.pbuf = [] ∧
      t = { s with
        state := t.state, phase := t.phase, errKind := t.errKind, errCode := t.errCode, errExp := t.errExp
        errFnd := t.errFnd, pbuf := t.pbuf }) ∧
    (¬ (s.ReadRunning ∧ s.phase = .pCheck) → exec (.fmtUnsup flags fourCc) s = .next s)

/-! ### Encoding -/

/-- Words written out from R90, R91, R93, R96 and R101 decode to the instructions they stand for. -/
def Obligations.SampleWordsDecode : Prop :=
  decodeWord Params.default .cmd 0 = .instr .nop ∧
  decodeWord Params.default .cmd 1 = .instr .read ∧
  decodeWord Params.default .cmd 2 = .instr .decode ∧
  decodeWord Params.default .cmd 3 = .instr .cmdRsv3 ∧
  decodeWord Params.default .cmd 0x00000101 = .instr (.cmdRsvhi 1 0x40) ∧
  decodeWord Params.default .c565 0x1234 = .instr (.cx565 2 17 20) ∧
  decodeWord Params.default .bc1blk 0xE4E4E4E4001FF800 = .instr (.blk4c 0xF800 0x001F 0xE4E4E4E4) ∧
  decodeWord Params.default .bc1blk 0x55FFAA0007E007E0 = .instr (.blk3c 0x07E0 0x07E0 0x55FFAA00) ∧
  decodeWord Params.default .idx2 3 = .instr .sel3 ∧
  decodeWord Params.default .pfkey 0x3154584400000004 = .instr (.fmtBc1 4 0x31545844) ∧
  decodeWord Params.default .pfkey 0x3554584400000004 = .instr (.fmtUnsup 4 0x35545844) ∧
  decodeWord Params.default .pfkey 0x0000000000000041 = .instr (.fmtRgb32 0x41 0)

/-- Decoding an encoded well-formed instruction gives it back, for every instruction and all its operands. -/
def Obligations.DecodeOfEncodeIsIdentity : Prop :=
  ∀ (p : Params) (i : Instr), i.wf p = true → decodeWord p i.format (encode i) = .instr i

/-- A word has one meaning: what it decodes to is well-formed, belongs to the word's format and encodes to the word. -/
def Obligations.EncodeOfDecodeIsIdentity : Prop :=
  ∀ (p : Params) (f : Format) (w : Nat) (i : Instr), decodeWord p f w = .instr i →
    i.wf p = true ∧ i.format = f ∧ encode i = w

/-- R105: every word that fits its format decodes. That a word wider than its format is rejected by name is the model's own
choice: R105 says nothing of such words (log entry 8). -/
def Obligations.EveryFittingWordDecodes : Prop :=
  ∀ (p : Params) (f : Format) (w : Nat),
    (w < 2 ^ f.width → ∃ i, decodeWord p f w = .instr i) ∧
    (2 ^ f.width ≤ w → decodeWord p f w = .rejected (.tooWide f))

/-! ### Steps -/

/-- A step whose event brings a word runs the instruction the word decodes to, with the event taken away and nothing else
around it. A `CMD` write is the host's (R21); the other port is the model's own (log entry 8). A step in which nobody
outside acts is the core going on by itself, and there a running `READ` is taken up again where it stands (R255; log
entries 3 and 7). -/
def Obligations.StepRunsTheDecodedWord : Prop :=
  ∀ (s : State) (es : List Event) (i : Instr),
    (∀ w : Word, s.inbox = .write (.cmd w) :: es → decodeWord s.params .cmd w.toNat = .instr i →
      step s = exec i { s with inbox := es }) ∧
    (∀ (f : Format) (w : Nat), s.inbox = .present f w :: es → decodeWord s.params f w = .instr i →
      step s = exec i { s with inbox := es }) ∧
    (s.inbox = [] → step s = coreStep s) ∧
    (s.inbox = .idle :: es → step s = coreStep { s with inbox := es }) ∧
    (s.state = .busy → s.op = 1 → coreStep s = resumeRead s)

/-- R242, R253: between commands the core rests with all its state. -/
def Obligations.CoreRestsBetweenCommands : Prop :=
  ∀ s : State, s.state ≠ .busy →
    (s.inbox = [] → step s = .next s) ∧ ∀ es, s.inbox = .idle :: es → step s = .next { s with inbox := es }

/-- R43, R30, R31: the host's register writes: `D_*` are written outside `BUSY` and ignored while `BUSY`; a write to a
read-only register is ignored. -/
def Obligations.HostRegisterWrites : Prop :=
  ∀ (s : State) (es : List Event),
    (∀ v, s.inbox = .write (.dWidth v) :: es →
      step s = .next (if s.state = .busy then { s with inbox := es } else { s with inbox := es, dWidth := v })) ∧
    (∀ v, s.inbox = .write (.dHeight v) :: es →
      step s = .next (if s.state = .busy then { s with inbox := es } else { s with inbox := es, dHeight := v })) ∧
    (∀ v, s.inbox = .write (.dDatalen v) :: es →
      step s = .next (if s.state = .busy then { s with inbox := es }
        else { s with inbox := es, dDatalen := v.toNat })) ∧
    ∀ r v, s.inbox = .write (.readOnly r v) :: es → step s = .next { s with inbox := es }

/-- R67: host reads have no effect on the machine. -/
def Obligations.HostReadsHaveNoEffect : Prop :=
  ∀ (s : State) (es : List Event),
    (∀ r, s.inbox = .readReg r :: es → step s = .next { s with inbox := es }) ∧
    ∀ sp a, s.inbox = .readByte sp a :: es → step s = .next { s with inbox := es }

/-- R36, R43: a host write of a byte of `DBUF`, where there is such a byte and no `DECODE` runs, stores it and changes
nothing else: every other byte of `DBUF` reads as before. That this is so at or beyond `D_DATALEN` too, where U6 allows any
value, is the model's choice (log entry 6). -/
def Obligations.HostWritesOneByteOfDbuf : Prop :=
  ∀ (s : State) (es : List Event) (a : Nat) (b : Byte), s.inbox = .writeDbuf a b :: es → s.dbuf.wf = true →
    ¬ (s.state = .busy ∧ s.op = 2) → overCap s.params (a + 1) = false →
    ∃ t, step s = .next t ∧ t.dbuf.read a = some b ∧ (∀ k, k ≠ a → t.dbuf.read k = s.dbuf.read k) ∧
      t = { s with inbox := es, dbuf := t.dbuf }

/-- R281, R283, R70: what the spec assumes of the world outside stops the machine by name where it is broken (log
entry 11). -/
def Obligations.BrokenOwnershipStopsByName : Prop :=
  ∀ (s : State) (es : List Event),
    (∀ a b, s.inbox = .writeDbuf a b :: es → s.state = .busy → s.op = 2 →
      step s = .fault .dbufWriteDuringDecode) ∧
    (∀ a b c, s.inbox = .writeDbuf a b :: es → ¬ (s.state = .busy ∧ s.op = 2) → s.params.cap = some c → c ≤ a →
      step s = .fault .noSuchDbufByte) ∧
    ∀ items, s.inbox = .attach items :: es → s.state = .busy → s.op = 1 →
      step s = .fault .streamReplacedDuringRead

/-! ### Raising an error -/

/-- R231, R232, R240, R241: what a raise writes and what it leaves alone: the result registers, `SPOS`, the arguments,
`STATUS.op`, `cmd_rej` and the other operation's buffer. -/
def Obligations.RaiseReportsTheCause : Prop :=
  ∀ (s : State) (c : Cause) (x f : Nat),
    (s.raise c x f).FailedWith c x f ∧ (s.raise c x f).phase = .pDone ∧
    s.raise c x f = { s with
      errKind := (s.raise c x f).errKind, errCode := (s.raise c x f).errCode, errExp := x, errFnd := f
      pbuf := if s.op = 1 then [] else s.pbuf, rbuf := if s.op = 2 then [] else s.rbuf
      phase := .pDone, state := .doneErr }

/-! ### READ -/

/-- R130, R246, R255: a `READ` accepted with no answer of the stream ready is `BUSY` in `P_MAGIC`, its results and the
error registers zero, `PBUF` without any specified byte, and everything else as it was. -/
def Obligations.AcceptedReadWaitsForTheFirstAnswer : Prop :=
  ∀ s : State, s.state ≠ .busy → s.sin = [] →
    exec .read s = .next { s with
      state := .busy, op := 1, cmdRej := false, errKind := .none, errCode := 0, errExp := 0, errFnd := 0
      tWidth := 0, tHeight := 0, tFormat := .uncompressed24, tPaylen := 0, spos := 0, pbuf := []
      phase := .pMagic, magicBuf := [], hdrBuf := [] }

/-- R255, R271: a `READ` whose stream never answers stays `BUSY` for ever, and only reset ends it: with nothing outside
acting, a step changes nothing but the unseen format register, which is the model's (log entry 15); and whatever acts
outside, a row at the model's own port among it (log entry 8), a next state is still that of a running `READ` unless the
event is a reset, and its stream is still silent unless the event is the stream's answer. -/
def Obligations.ReadWaitsWhileTheStreamIsSilent : Prop :=
  ∀ s : State, s.state = .busy → s.ReadProgress → s.sin = [] →
    (s.inbox = [] → ∃ fmt, step s = .next { s with fmtSel := fmt }) ∧
    ∀ t, step s = .next t →
      s.ResetNext ∨
      (t.state = .busy ∧ t.op = 1 ∧ (t.sin = [] ∨ ∃ i es, s.inbox = .answer i :: es ∧ t.sin = [i]))

/-- R149, R27, R145: `READ` is the whole function, for every stream that delivers `S` and then ends or breaks; on success
the host reads the Texture's dimensions, the number of its format, the payload's length and each byte of the payload. The
capacity premise is R70's. That a host read beyond the payload has no value, and that `PBUF` itself holds nothing there, is
the model's choice (log entry 6). -/
def Obligations.ReadComputesTheWholeFunction : Prop :=
  ∀ (s : State) (S : List Byte) (e : StreamEnd) (rest : List StreamItem), s.state ≠ .busy →
    s.sin = itemsOf S ++ e.item :: rest → overCap s.params (readNeed s.params S) = false →
    match wholeRead s.params S e with
    | .err c x f => ∃ t, exec .read s = .next t ∧ t.FailedWith c x f ∧ t.op = 1 ∧ t.cmdRej = false ∧ t.NoTexture
    | .ok w h fmt payload => ∃ t, exec .read s = .next t ∧ t.Succeeded ∧ t.op = 1 ∧ t.cmdRej = false ∧
        t.hostReg .tWidth = some w.toNat ∧ t.hostReg .tHeight = some h.toNat ∧
        t.hostReg .tFormat = some (tagNumber fmt) ∧ t.hostReg .tPaylen = some payload.length ∧
        ∀ a, t.hostByte .pbuf a = payload[a]? ∧ t.pbuf.read a = payload[a]?

/-- R147: how many bytes each outcome of `READ` has obtained, and what it leaves in the stream. -/
def Obligations.ReadConsumesWhatTheTableSays : Prop :=
  ∀ (s t : State) (S : List Byte) (e : StreamEnd) (rest : List StreamItem), s.state ≠ .busy →
    s.sin = itemsOf S ++ e.item :: rest → exec .read s = .next t →
    t.spos = bytesConsumed S (wholeRead s.params S e) ∧
    t.sin = if endConsumed (wholeRead s.params S e) then rest else itemsOf (S.drop t.spos) ++ e.item :: rest

/-- R17, R147, R255: it makes no difference whether the answers of the stream are all ready when `READ` is accepted or
come later: a `READ` that waits and goes on ends where one that never waits ends, and one that has ended pulls nothing
of what comes later. The split into waiting and going on is the model's (log entries 3 and 7). -/
def Obligations.ReadDoesNotDependOnWhenAnswersArrive : Prop :=
  ∀ (s t : State) (A B : List StreamItem), s.state ≠ .busy → exec .read { s with sin := A } = .next t →
    (t.state = .busy → resumeRead { t with sin := B } = exec .read { s with sin := A ++ B }) ∧
    (t.state ≠ .busy → exec .read { s with sin := A ++ B } = .next { t with sin := t.sin ++ B })

/-- R26, R148: a failed `READ` publishes nothing: no Texture register and no byte of `PBUF` (that a host read of an
unspecified byte has no value is the model's form, log entry 6). It may fail in the step that accepts it, or in a later one,
having waited; there the registers are zero because `ResultsLegal` holds, which every step keeps
(`StepKeepsTheHandshake`). -/
def Obligations.FailedReadPublishesNothing : Prop :=
  ∀ s t : State, t.state = .doneErr →
    (s.state ≠ .busy → exec .read s = .next t → t.ReadsNoTexture) ∧
    (s.state = .busy → s.op = 1 → s.ResultsLegal → resumeRead s = .next t → t.ReadsNoTexture)

/-- R130, R241: the frame of `READ`: the arguments and results of `DECODE`, its buffers, the datapath, the events and the
parameters are as before. So it is in a later step in which a running `READ` goes on, and there `STATUS.op` and `cmd_rej`
are as before too. -/
def Obligations.ReadFrame : Prop :=
  ∀ s t : State,
    (exec .read s = .next t →
      t = { s with
        state := t.state, op := t.op, cmdRej := t.cmdRej, errKind := t.errKind, errCode := t.errCode
        errExp := t.errExp, errFnd := t.errFnd, tWidth := t.tWidth, tHeight := t.tHeight, tFormat := t.tFormat
        tPaylen := t.tPaylen, spos := t.spos, pbuf := t.pbuf, phase := t.phase, magicBuf := t.magicBuf
        hdrBuf := t.hdrBuf, fmtSel := t.fmtSel, sin := t.sin }) ∧
    (s.state = .busy → s.op = 1 → resumeRead s = .next t →
      t = { s with
        state := t.state, errKind := t.errKind, errCode := t.errCode, errExp := t.errExp, errFnd := t.errFnd
        tWidth := t.tWidth, tHeight := t.tHeight, tFormat := t.tFormat, tPaylen := t.tPaylen, spos := t.spos
        pbuf := t.pbuf, phase := t.phase, magicBuf := t.magicBuf, hdrBuf := t.hdrBuf, fmtSel := t.fmtSel
        sin := t.sin })

/-- R142, R152: with the default parameters, the flag words of R142's examples give these formats. -/
def Obligations.DefaultFlagsSelectTheFormat : Prop :=
  keyFormat Params.default 0x41 0 = some .uncompressed32 ∧ keyFormat Params.default 0x40 0 = some .uncompressed24 ∧
  keyFormat Params.default 0x02 0 = some .uncompressed24 ∧ keyFormat Params.default 0 0 = some .uncompressed24 ∧
  keyFormat Params.default 4 0x31545844 = some .bc1 ∧ keyFormat Params.default 5 0x31545844 = some .bc1 ∧
  keyFormat Params.default 4 0x35545844 = none ∧ keyFormat Params.default 4 0x30315844 = none

/-! ### DECODE -/

/-- R172, R174, R189, R190: `DECODE` is the whole function: the two length errors in their order, and else the raster,
every pixel of it and no byte beyond it. The capacity premises are R70's. That `RBUF` holds nothing beyond the raster, not
even older bytes, rests on the model's choice to empty it at acceptance (log entry 6). -/
def Obligations.DecodeComputesTheWholeRaster : Prop :=
  ∀ s : State, s.state ≠ .busy → overCap s.params s.dDatalen = false →
    (s.dDatalen % 8 ≠ 0 →
      ∃ t, exec .decode s = .next t ∧ t.FailedWith .badBlockLength 0 (s.dDatalen % 8) ∧ t.op = 2 ∧
        t.cmdRej = false ∧ t.hostReg .dRaslen = some 0) ∧
    (s.dDatalen % 8 = 0 → s.dDatalen < gridCells s.dWidth * gridCells s.dHeight * 8 →
      ∃ t, exec .decode s = .next t ∧
        t.FailedWith .blockUnderrun (gridCells s.dWidth * gridCells s.dHeight * 8) s.dDatalen ∧ t.op = 2 ∧
        t.cmdRej = false ∧ t.hostReg .dRaslen = some 0) ∧
    (s.dDatalen % 8 = 0 → gridCells s.dWidth * gridCells s.dHeight * 8 ≤ s.dDatalen →
      overCap s.params (s.dWidth.toNat * s.dHeight.toNat * 3) = false →
      ∃ t, exec .decode s = .next t ∧ t.Succeeded ∧ t.op = 2 ∧ t.cmdRej = false ∧
        t.hostReg .dRaslen = some (s.dWidth.toNat * s.dHeight.toNat * 3) ∧
        (∀ R C, R < s.dHeight.toNat → C < s.dWidth.toNat →
          t.hostByte .rbuf ((R * s.dWidth.toNat + C) * 3) =
            some (wholePixel s.params.blend s.dbufByte s.dWidth R C).r ∧
          t.hostByte .rbuf ((R * s.dWidth.toNat + C) * 3 + 1) =
            some (wholePixel s.params.blend s.dbufByte s.dWidth R C).g ∧
          t.hostByte .rbuf ((R * s.dWidth.toNat + C) * 3 + 2) =
            some (wholePixel s.params.blend s.dbufByte s.dWidth R C).b) ∧
        ∀ a, s.dWidth.toNat * s.dHeight.toNat * 3 ≤ a → t.rbuf.read a = none)

/-- R173: the block grid: `max(1, ceil(d/4))` cells along a dimension, at least 1 and at most `2^30`. -/
def Obligations.GridHasAtLeastOneCell : Prop :=
  ∀ d : Word, gridCells d = max 1 ((d.toNat + 3) / 4) ∧ 1 ≤ gridCells d ∧ gridCells d ≤ 2 ^ 30

/-- R191: a zero dimension: the grid still demands its blocks, and the raster is empty. -/
def Obligations.ZeroDimensionGivesAnEmptyRaster : Prop :=
  ∀ s : State, s.state ≠ .busy → overCap s.params s.dDatalen = false →
    (s.dWidth = 0 ∨ s.dHeight = 0) → s.dDatalen % 8 = 0 →
    (s.dDatalen < gridCells s.dWidth * gridCells s.dHeight * 8 →
      ∃ t, exec .decode s = .next t ∧
        t.FailedWith .blockUnderrun (gridCells s.dWidth * gridCells s.dHeight * 8) s.dDatalen ∧
        t.hostReg .dRaslen = some 0) ∧
    (gridCells s.dWidth * gridCells s.dHeight * 8 ≤ s.dDatalen →
      ∃ t, exec .decode s = .next t ∧ t.Succeeded ∧ t.hostReg .dRaslen = some 0 ∧ t.rbuf = [])

/-- R75, R186: the order in which the blocks are decoded cannot be told from the raster. -/
def Obligations.BlockOrderIsUnobservable : Prop :=
  ∀ (s : State) (order : List Nat) (m : Memory), m.wf = true →
    order.Perm (List.range (gridBlocks s.argWidth s.argHeight)) →
    s.writeBlocks order m = s.writeBlocks (List.range (gridBlocks s.argWidth s.argHeight)) m

/-- R171, R192: two successful `DECODE`s of the same dimensions and blend mode whose input agrees on the bytes the grid
needs give the same raster, as the host reads it, and the same outcome, whatever else differs: earlier commands, `RBUF`'s
contents, `LANES`, excess input. That the buffers are equal beyond `D_RASLEN` too, where R41 leaves the bytes unspecified,
is the model's choice (log entry 6: `RBUF` is emptied at acceptance). -/
def Obligations.DecodeDependsOnItsInputsOnly : Prop :=
  ∀ s₁ s₂ t₁ t₂ : State, s₁.state ≠ .busy → s₂.state ≠ .busy →
    s₁.dWidth = s₂.dWidth → s₁.dHeight = s₂.dHeight → s₁.params.blend = s₂.params.blend →
    (∀ j, j < gridCells s₁.dWidth * gridCells s₁.dHeight * 8 → s₁.dbufByte j = s₂.dbufByte j) →
    exec .decode s₁ = .next t₁ → exec .decode s₂ = .next t₂ → t₁.state = .doneOk → t₂.state = .doneOk →
    (∀ a, a < t₁.dRaslen → t₁.hostByte .rbuf a = t₂.hostByte .rbuf a ∧ (t₁.hostByte .rbuf a).isSome = true) ∧
    t₁.hostReg .dRaslen = t₂.hostReg .dRaslen ∧ t₁.hostReg .status = t₂.hostReg .status ∧ t₁.rbuf = t₂.rbuf

/-- R68, R183: a pixel write changes no byte outside the raster. -/
def Obligations.PixelWritesStayInsideTheRaster : Prop :=
  ∀ (width height : Word) (pal : Palette) (ix : Word) (i n : Nat) (m : Memory) (a : Nat), m.wf = true →
    (writePixel width height pal ix i m n).read a ≠ m.read a → a < width.toNat * height.toNat * 3

/-- R184: every byte of the raster is written by exactly one pixel of exactly one block of the grid. -/
def Obligations.EveryRasterByteIsWrittenOnce : Prop :=
  ∀ (width height : Word) (a : Nat), a < width.toNat * height.toNat * 3 →
    ∃! b : Nat × Nat, b.1 < gridCells width * gridCells height ∧ b.2 < 16 ∧
      pixelRow width b.1 b.2 < height.toNat ∧ pixelCol width b.1 b.2 < width.toNat ∧
      (pixelRow width b.1 b.2 * width.toNat + pixelCol width b.1 b.2) * 3 ≤ a ∧
      a < (pixelRow width b.1 b.2 * width.toNat + pixelCol width b.1 b.2) * 3 + 3

/-- R170, R241: the frame of `DECODE`: the results of `READ`, `SPOS`, `PBUF`, the arguments, `DBUF`, the stream, the events
and the parameters are as before. -/
def Obligations.DecodeFrame : Prop :=
  ∀ s t : State, exec .decode s = .next t →
    t = { s with
      state := t.state, op := t.op, cmdRej := t.cmdRej, errKind := t.errKind, errCode := t.errCode
      errExp := t.errExp, errFnd := t.errFnd, dRaslen := t.dRaslen, rbuf := t.rbuf, phase := t.phase
      bidx := t.bidx, pix := t.pix, argWidth := t.argWidth, argHeight := t.argHeight, argDatalen := t.argDatalen
      color0 := t.color0, color1 := t.color1, indices := t.indices, e0 := t.e0, e1 := t.e1, pal := t.pal
      colOut := t.colOut }

/-! ### The whole machine -/

/-- R43, R72: no instruction writes an argument register, `DBUF`, the events, the parameters or the free values' counter. -/
def Obligations.NoInstructionWritesTheArguments : Prop :=
  ∀ (i : Instr) (s t : State), exec i s = .next t →
    t.dWidth = s.dWidth ∧ t.dHeight = s.dHeight ∧ t.dDatalen = s.dDatalen ∧ t.dbuf = s.dbuf ∧
    t.inbox = s.inbox ∧ t.params = s.params ∧ t.epoch = s.epoch

/-- R35, R67, R76: only `READ` pulls from the stream, and it pulls from its front: among the instructions, and when the
core goes on by itself, where only a running `READ` pulls. -/
def Obligations.OnlyReadPullsTheStream : Prop :=
  ∀ s t : State,
    (∀ i : Instr, exec i s = .next t → (i ≠ .read → t.sin = s.sin) ∧ ∃ pulled, s.sin = pulled ++ t.sin) ∧
    (coreStep s = .next t → (¬ (s.state = .busy ∧ s.op = 1) → t.sin = s.sin) ∧ ∃ pulled, s.sin = pulled ++ t.sin)

/-- R30: an argument register changes only by a host write outside `BUSY` or by reset, and the parameters never. -/
def Obligations.ArgumentsChangeByHostWriteOnly : Prop :=
  ∀ s t : State, step s = .next t →
    t.params = s.params ∧
    (t.dWidth ≠ s.dWidth → s.ResetNext ∨ (s.state ≠ .busy ∧ ∃ v es, s.inbox = .write (.dWidth v) :: es)) ∧
    (t.dHeight ≠ s.dHeight → s.ResetNext ∨ (s.state ≠ .busy ∧ ∃ v es, s.inbox = .write (.dHeight v) :: es)) ∧
    (t.dDatalen ≠ s.dDatalen → s.ResetNext ∨ (s.state ≠ .busy ∧ ∃ v es, s.inbox = .write (.dDatalen v) :: es))

/-- R245: how `STATUS.state` changes in a step: by reset to `IDLE`, out of `BUSY` by completion or failure, or by an
accepted `READ` or `DECODE`, never to `IDLE`. A command that completes within its step passes through `BUSY` unseen (log
entry 7). -/
def Obligations.StatusStateTransitions : Prop :=
  ∀ s t : State, step s = .next t → t.state ≠ s.state →
    (s.ResetNext ∧ t.state = .idle) ∨
    (s.state = .busy ∧ (t.state = .doneOk ∨ t.state = .doneErr)) ∨
    (s.state ≠ .busy ∧ t.state ≠ .idle ∧ (s.RunsNext .read ∨ s.RunsNext .decode))

/-- R22: `cmd_rej` is sticky: only reset or an accepted command clears it. -/
def Obligations.CmdRejIsSticky : Prop :=
  ∀ s t : State, step s = .next t → s.cmdRej = true → t.cmdRej = false →
    s.ResetNext ∨ (s.state ≠ .busy ∧ (s.RunsNext .read ∨ s.RunsNext .decode))

/-- R233: which instruction can end a command with which cause, a `READ` or `DECODE` accepted after a failure among them;
and with which cause the core by itself can end a running `READ`. -/
def Obligations.OnlyCommandsFail : Prop :=
  ∀ s t : State, t.state = .doneErr →
    (∀ i : Instr, exec i s = .next t → (s.state ≠ .doneErr ∨ (s.state ≠ .busy ∧ (i = .read ∨ i = .decode))) →
      (i = .read ∧
        ∃ c ∈ [Cause.badMagic, .badHeaderSize, .badPfSize, .unsupportedFormat, .sMagic, .sHeader, .sPayload],
          t.errKind = c.kind ∧ t.errCode = c.code) ∨
      (i = .decode ∧ ∃ c ∈ [Cause.badBlockLength, .blockUnderrun], t.errKind = c.kind ∧ t.errCode = c.code) ∨
      (s.ReadRunning ∧ s.phase = .pCheck ∧ (∃ flags fourCc, i = .fmtUnsup flags fourCc) ∧ t.errKind = .malformed ∧ t.errCode = 4)) ∧
    (s.state = .busy → s.op = 1 → resumeRead s = .next t →
      ∃ c ∈ [Cause.badMagic, .badHeaderSize, .badPfSize, .unsupportedFormat, .sMagic, .sHeader, .sPayload],
        t.errKind = c.kind ∧ t.errCode = c.code)

/-- Every instruction runs in every state of a machine without a finite capacity; under a finite capacity only `READ` and
`DECODE` are refused, for a length beyond it (R70, log entry 10); no instruction faults. -/
def Obligations.EveryInstructionRuns : Prop :=
  ∀ (i : Instr) (s : State),
    (s.params.cap = none → ∃ t, exec i s = .next t) ∧
    (∀ f, exec i s ≠ .fault f) ∧
    ∀ r, exec i s = .refused r →
      (i = .read ∨ i = .decode) ∧ ∃ n c, r = .overCapacity n ∧ s.params.cap = some c ∧ c < n

/-- R70, R274: where the capacity stops a `DECODE`: an input longer than it, or a raster longer than it behind an input
that passes both checks (log entry 10). -/
def Obligations.CapacityStopsDecode : Prop :=
  ∀ (s : State) (c : Nat), s.state ≠ .busy → s.params.cap = some c →
    (c < s.dDatalen → exec .decode s = .refused (.overCapacity s.dDatalen)) ∧
    (s.dDatalen ≤ c → s.dDatalen % 8 = 0 → gridCells s.dWidth * gridCells s.dHeight * 8 ≤ s.dDatalen →
      c < s.dWidth.toNat * s.dHeight.toNat * 3 →
      exec .decode s = .refused (.overCapacity (s.dWidth.toNat * s.dHeight.toNat * 3)))

/-! ### Invariants of every step -/

/-- The canonical form of every buffer is kept by every step. -/
def Obligations.StepKeepsBuffersCanonical : Prop :=
  ∀ s t : State, s.BuffersCanonical → step s = .next t → t.BuffersCanonical

/-- R22 to R32, R233, R240: the handshake is kept by every step: the op field legal, the error registers those of the
failed command or zero, no result of a command that has not succeeded. -/
def Obligations.StepKeepsTheHandshake : Prop :=
  ∀ s t : State, s.HandshakeLegal → step s = .next t → t.HandshakeLegal

/-- R28, R33, R37, R41, R152: every step keeps the Texture whole and the sequencer's phase legal: `PBUF` holds every byte
below `T_PAYLEN`, and an uncompressed payload has the length its dimensions give. A legal phase says, besides R33, that the
only `BUSY` state a step leaves is a `READ` that waits for the stream: that is the model's big step (log entry 7, DEDUCED,
unsafe). -/
def Obligations.StepKeepsTheTextureWhole : Prop :=
  ∀ s t : State, s.PhaseLegal ∧ s.ResultsLegal ∧ s.TextureWhole ∧ s.BuffersCanonical → step s = .next t →
    t.PhaseLegal ∧ t.ResultsLegal ∧ t.TextureWhole ∧ t.BuffersCanonical

/-- R32, R38, R41: every step keeps the raster whole: `RBUF` holds every byte below `D_RASLEN`. That the phase stays legal
says, besides R33, that no step leaves a `DECODE` `BUSY`: that is the model's big step (log entry 7, DEDUCED, unsafe). -/
def Obligations.StepKeepsTheRasterWhole : Prop :=
  ∀ s t : State, s.PhaseLegal ∧ s.RasterWhole ∧ s.BuffersCanonical → step s = .next t →
    t.PhaseLegal ∧ t.RasterWhole ∧ t.BuffersCanonical

/-- R9, R221: every step keeps the bounded lengths within `LEN_W` bits. -/
def Obligations.StepKeepsLengthsWithin66Bits : Prop :=
  ∀ s t : State, s.LengthsFit → step s = .next t → t.LengthsFit

/-! ### The capacity and READ -/

/-- R70, R273: where the capacity stops a `READ` outside `BUSY`: one that comes to its payload and needs more bytes of
`PBUF` than the capacity, whatever follows the bytes that are ready, nothing, `End` or `Fail` (log entry 10). With
`ReadDoesNotDependOnWhenAnswersArrive` this says the same of a `READ` that waited before it came there. -/
def Obligations.CapacityStopsRead : Prop :=
  ∀ (s : State) (c : Nat) (S : List Byte) (later : List StreamItem), s.state ≠ .busy → s.params.cap = some c →
    s.sin = itemsOf S ++ later → (∀ b, later.head? ≠ some (.byte b)) → c < readNeed s.params S →
    exec .read s = .refused (.overCapacity (readNeed s.params S))
end

