-- ==== Sys2Proof/Laws/State.lean ====
section
/-! SUPPORT. One lemma per field and update of the state, true by rfl, so that no later proof unfolds a record update. -/

namespace Sys2Proof.Machine

section
variable (s : State)

@[simp] theorem State.reject_state : s.reject.state = s.state := rfl
@[simp] theorem State.reject_op : s.reject.op = s.op := rfl
@[simp] theorem State.reject_cmdRej : s.reject.cmdRej = true := rfl
@[simp] theorem State.reject_errKind : s.reject.errKind = s.errKind := rfl
@[simp] theorem State.reject_errCode : s.reject.errCode = s.errCode := rfl
@[simp] theorem State.reject_errExp : s.reject.errExp = s.errExp := rfl
@[simp] theorem State.reject_errFnd : s.reject.errFnd = s.errFnd := rfl
@[simp] theorem State.reject_tWidth : s.reject.tWidth = s.tWidth := rfl
@[simp] theorem State.reject_tHeight : s.reject.tHeight = s.tHeight := rfl
@[simp] theorem State.reject_tFormat : s.reject.tFormat = s.tFormat := rfl
@[simp] theorem State.reject_tPaylen : s.reject.tPaylen = s.tPaylen := rfl
@[simp] theorem State.reject_spos : s.reject.spos = s.spos := rfl
@[simp] theorem State.reject_dWidth : s.reject.dWidth = s.dWidth := rfl
@[simp] theorem State.reject_dHeight : s.reject.dHeight = s.dHeight := rfl
@[simp] theorem State.reject_dDatalen : s.reject.dDatalen = s.dDatalen := rfl
@[simp] theorem State.reject_dRaslen : s.reject.dRaslen = s.dRaslen := rfl
@[simp] theorem State.reject_dbuf : s.reject.dbuf = s.dbuf := rfl
@[simp] theorem State.reject_pbuf : s.reject.pbuf = s.pbuf := rfl
@[simp] theorem State.reject_rbuf : s.reject.rbuf = s.rbuf := rfl
@[simp] theorem State.reject_phase : s.reject.phase = s.phase := rfl
@[simp] theorem State.reject_bidx : s.reject.bidx = s.bidx := rfl
@[simp] theorem State.reject_pix : s.reject.pix = s.pix := rfl
@[simp] theorem State.reject_magicBuf : s.reject.magicBuf = s.magicBuf := rfl
@[simp] theorem State.reject_hdrBuf : s.reject.hdrBuf = s.hdrBuf := rfl
@[simp] theorem State.reject_fmtSel : s.reject.fmtSel = s.fmtSel := rfl
@[simp] theorem State.reject_argWidth : s.reject.argWidth = s.argWidth := rfl
@[simp] theorem State.reject_argHeight : s.reject.argHeight = s.argHeight := rfl
@[simp] theorem State.reject_argDatalen : s.reject.argDatalen = s.argDatalen := rfl
@[simp] theorem State.reject_color0 : s.reject.color0 = s.color0 := rfl
@[simp] theorem State.reject_color1 : s.reject.color1 = s.color1 := rfl
@[simp] theorem State.reject_indices : s.reject.indices = s.indices := rfl
@[simp] theorem State.reject_e0 : s.reject.e0 = s.e0 := rfl
@[simp] theorem State.reject_e1 : s.reject.e1 = s.e1 := rfl
@[simp] theorem State.reject_pal : s.reject.pal = s.pal := rfl
@[simp] theorem State.reject_chOut : s.reject.chOut = s.chOut := rfl
@[simp] theorem State.reject_colOut : s.reject.colOut = s.colOut := rfl
@[simp] theorem State.reject_sin : s.reject.sin = s.sin := rfl
@[simp] theorem State.reject_inbox : s.reject.inbox = s.inbox := rfl
@[simp] theorem State.reject_epoch : s.reject.epoch = s.epoch := rfl
@[simp] theorem State.reject_params : s.reject.params = s.params := rfl

end

section
variable (s : State)

@[simp] theorem State.acceptRead_state : s.acceptRead.state = .busy := rfl
@[simp] theorem State.acceptRead_op : s.acceptRead.op = 1 := rfl
@[simp] theorem State.acceptRead_cmdRej : s.acceptRead.cmdRej = false := rfl
@[simp] theorem State.acceptRead_errKind : s.acceptRead.errKind = .none := rfl
@[simp] theorem State.acceptRead_errCode : s.acceptRead.errCode = 0 := rfl
@[simp] theorem State.acceptRead_errExp : s.acceptRead.errExp = 0 := rfl
@[simp] theorem State.acceptRead_errFnd : s.acceptRead.errFnd = 0 := rfl
@[simp] theorem State.acceptRead_tWidth : s.acceptRead.tWidth = 0 := rfl
@[simp] theorem State.acceptRead_tHeight : s.acceptRead.tHeight = 0 := rfl
@[simp] theorem State.acceptRead_tFormat : s.acceptRead.tFormat = .uncompressed24 := rfl
@[simp] theorem State.acceptRead_tPaylen : s.acceptRead.tPaylen = 0 := rfl
@[simp] theorem State.acceptRead_spos : s.acceptRead.spos = 0 := rfl
@[simp] theorem State.acceptRead_dWidth : s.acceptRead.dWidth = s.dWidth := rfl
@[simp] theorem State.acceptRead_dHeight : s.acceptRead.dHeight = s.dHeight := rfl
@[simp] theorem State.acceptRead_dDatalen : s.acceptRead.dDatalen = s.dDatalen := rfl
@[simp] theorem State.acceptRead_dRaslen : s.acceptRead.dRaslen = s.dRaslen := rfl
@[simp] theorem State.acceptRead_dbuf : s.acceptRead.dbuf = s.dbuf := rfl
@[simp] theorem State.acceptRead_pbuf : s.acceptRead.pbuf = [] := rfl
@[simp] theorem State.acceptRead_rbuf : s.acceptRead.rbuf = s.rbuf := rfl
@[simp] theorem State.acceptRead_phase : s.acceptRead.phase = .pMagic := rfl
@[simp] theorem State.acceptRead_bidx : s.acceptRead.bidx = s.bidx := rfl
@[simp] theorem State.acceptRead_pix : s.acceptRead.pix = s.pix := rfl
@[simp] theorem State.acceptRead_magicBuf : s.acceptRead.magicBuf = [] := rfl
@[simp] theorem State.acceptRead_hdrBuf : s.acceptRead.hdrBuf = [] := rfl
@[simp] theorem State.acceptRead_fmtSel : s.acceptRead.fmtSel = s.fmtSel := rfl
@[simp] theorem State.acceptRead_argWidth : s.acceptRead.argWidth = s.argWidth := rfl
@[simp] theorem State.acceptRead_argHeight : s.acceptRead.argHeight = s.argHeight := rfl
@[simp] theorem State.acceptRead_argDatalen : s.acceptRead.argDatalen = s.argDatalen := rfl
@[simp] theorem State.acceptRead_color0 : s.acceptRead.color0 = s.color0 := rfl
@[simp] theorem State.acceptRead_color1 : s.acceptRead.color1 = s.color1 := rfl
@[simp] theorem State.acceptRead_indices : s.acceptRead.indices = s.indices := rfl
@[simp] theorem State.acceptRead_e0 : s.acceptRead.e0 = s.e0 := rfl
@[simp] theorem State.acceptRead_e1 : s.acceptRead.e1 = s.e1 := rfl
@[simp] theorem State.acceptRead_pal : s.acceptRead.pal = s.pal := rfl
@[simp] theorem State.acceptRead_chOut : s.acceptRead.chOut = s.chOut := rfl
@[simp] theorem State.acceptRead_colOut : s.acceptRead.colOut = s.colOut := rfl
@[simp] theorem State.acceptRead_sin : s.acceptRead.sin = s.sin := rfl
@[simp] theorem State.acceptRead_inbox : s.acceptRead.inbox = s.inbox := rfl
@[simp] theorem State.acceptRead_epoch : s.acceptRead.epoch = s.epoch := rfl
@[simp] theorem State.acceptRead_params : s.acceptRead.params = s.params := rfl

end

section
variable (s : State)

@[simp] theorem State.acceptDecode_state : s.acceptDecode.state = .busy := rfl
@[simp] theorem State.acceptDecode_op : s.acceptDecode.op = 2 := rfl
@[simp] theorem State.acceptDecode_cmdRej : s.acceptDecode.cmdRej = false := rfl
@[simp] theorem State.acceptDecode_errKind : s.acceptDecode.errKind = .none := rfl
@[simp] theorem State.acceptDecode_errCode : s.acceptDecode.errCode = 0 := rfl
@[simp] theorem State.acceptDecode_errExp : s.acceptDecode.errExp = 0 := rfl
@[simp] theorem State.acceptDecode_errFnd : s.acceptDecode.errFnd = 0 := rfl
@[simp] theorem State.acceptDecode_tWidth : s.acceptDecode.tWidth = s.tWidth := rfl
@[simp] theorem State.acceptDecode_tHeight : s.acceptDecode.tHeight = s.tHeight := rfl
@[simp] theorem State.acceptDecode_tFormat : s.acceptDecode.tFormat = s.tFormat := rfl
@[simp] theorem State.acceptDecode_tPaylen : s.acceptDecode.tPaylen = s.tPaylen := rfl
@[simp] theorem State.acceptDecode_spos : s.acceptDecode.spos = s.spos := rfl
@[simp] theorem State.acceptDecode_dWidth : s.acceptDecode.dWidth = s.dWidth := rfl
@[simp] theorem State.acceptDecode_dHeight : s.acceptDecode.dHeight = s.dHeight := rfl
@[simp] theorem State.acceptDecode_dDatalen : s.acceptDecode.dDatalen = s.dDatalen := rfl
@[simp] theorem State.acceptDecode_dRaslen : s.acceptDecode.dRaslen = 0 := rfl
@[simp] theorem State.acceptDecode_dbuf : s.acceptDecode.dbuf = s.dbuf := rfl
@[simp] theorem State.acceptDecode_pbuf : s.acceptDecode.pbuf = s.pbuf := rfl
@[simp] theorem State.acceptDecode_rbuf : s.acceptDecode.rbuf = [] := rfl
@[simp] theorem State.acceptDecode_phase : s.acceptDecode.phase = .pDcheck := rfl
@[simp] theorem State.acceptDecode_bidx : s.acceptDecode.bidx = 0 := rfl
@[simp] theorem State.acceptDecode_pix : s.acceptDecode.pix = 0 := rfl
@[simp] theorem State.acceptDecode_magicBuf : s.acceptDecode.magicBuf = s.magicBuf := rfl
@[simp] theorem State.acceptDecode_hdrBuf : s.acceptDecode.hdrBuf = s.hdrBuf := rfl
@[simp] theorem State.acceptDecode_fmtSel : s.acceptDecode.fmtSel = s.fmtSel := rfl
@[simp] theorem State.acceptDecode_argWidth : s.acceptDecode.argWidth = s.dWidth := rfl
@[simp] theorem State.acceptDecode_argHeight : s.acceptDecode.argHeight = s.dHeight := rfl
@[simp] theorem State.acceptDecode_argDatalen : s.acceptDecode.argDatalen = s.dDatalen := rfl
@[simp] theorem State.acceptDecode_color0 : s.acceptDecode.color0 = s.color0 := rfl
@[simp] theorem State.acceptDecode_color1 : s.acceptDecode.color1 = s.color1 := rfl
@[simp] theorem State.acceptDecode_indices : s.acceptDecode.indices = s.indices := rfl
@[simp] theorem State.acceptDecode_e0 : s.acceptDecode.e0 = s.e0 := rfl
@[simp] theorem State.acceptDecode_e1 : s.acceptDecode.e1 = s.e1 := rfl
@[simp] theorem State.acceptDecode_pal : s.acceptDecode.pal = s.pal := rfl
@[simp] theorem State.acceptDecode_chOut : s.acceptDecode.chOut = s.chOut := rfl
@[simp] theorem State.acceptDecode_colOut : s.acceptDecode.colOut = s.colOut := rfl
@[simp] theorem State.acceptDecode_sin : s.acceptDecode.sin = s.sin := rfl
@[simp] theorem State.acceptDecode_inbox : s.acceptDecode.inbox = s.inbox := rfl
@[simp] theorem State.acceptDecode_epoch : s.acceptDecode.epoch = s.epoch := rfl
@[simp] theorem State.acceptDecode_params : s.acceptDecode.params = s.params := rfl

end

section
variable (s : State) (c : Cause) (x y : Nat)

@[simp] theorem State.raise_state : (s.raise c x y).state = .doneErr := rfl
@[simp] theorem State.raise_op : (s.raise c x y).op = s.op := rfl
@[simp] theorem State.raise_cmdRej : (s.raise c x y).cmdRej = s.cmdRej := rfl
@[simp] theorem State.raise_errKind : (s.raise c x y).errKind = c.kind := rfl
@[simp] theorem State.raise_errCode : (s.raise c x y).errCode = c.code := rfl
@[simp] theorem State.raise_errExp : (s.raise c x y).errExp = x := rfl
@[simp] theorem State.raise_errFnd : (s.raise c x y).errFnd = y := rfl
@[simp] theorem State.raise_tWidth : (s.raise c x y).tWidth = s.tWidth := rfl
@[simp] theorem State.raise_tHeight : (s.raise c x y).tHeight = s.tHeight := rfl
@[simp] theorem State.raise_tFormat : (s.raise c x y).tFormat = s.tFormat := rfl
@[simp] theorem State.raise_tPaylen : (s.raise c x y).tPaylen = s.tPaylen := rfl
@[simp] theorem State.raise_spos : (s.raise c x y).spos = s.spos := rfl
@[simp] theorem State.raise_dWidth : (s.raise c x y).dWidth = s.dWidth := rfl
@[simp] theorem State.raise_dHeight : (s.raise c x y).dHeight = s.dHeight := rfl
@[simp] theorem State.raise_dDatalen : (s.raise c x y).dDatalen = s.dDatalen := rfl
@[simp] theorem State.raise_dRaslen : (s.raise c x y).dRaslen = s.dRaslen := rfl
@[simp] theorem State.raise_dbuf : (s.raise c x y).dbuf = s.dbuf := rfl
@[simp] theorem State.raise_pbuf : (s.raise c x y).pbuf = (if s.op = 1 then [] else s.pbuf) := rfl
@[simp] theorem State.raise_rbuf : (s.raise c x y).rbuf = (if s.op = 2 then [] else s.rbuf) := rfl
@[simp] theorem State.raise_phase : (s.raise c x y).phase = .pDone := rfl
@[simp] theorem State.raise_bidx : (s.raise c x y).bidx = s.bidx := rfl
@[simp] theorem State.raise_pix : (s.raise c x y).pix = s.pix := rfl
@[simp] theorem State.raise_magicBuf : (s.raise c x y).magicBuf = s.magicBuf := rfl
@[simp] theorem State.raise_hdrBuf : (s.raise c x y).hdrBuf = s.hdrBuf := rfl
@[simp] theorem State.raise_fmtSel : (s.raise c x y).fmtSel = s.fmtSel := rfl
@[simp] theorem State.raise_argWidth : (s.raise c x y).argWidth = s.argWidth := rfl
@[simp] theorem State.raise_argHeight : (s.raise c x y).argHeight = s.argHeight := rfl
@[simp] theorem State.raise_argDatalen : (s.raise c x y).argDatalen = s.argDatalen := rfl
@[simp] theorem State.raise_color0 : (s.raise c x y).color0 = s.color0 := rfl
@[simp] theorem State.raise_color1 : (s.raise c x y).color1 = s.color1 := rfl
@[simp] theorem State.raise_indices : (s.raise c x y).indices = s.indices := rfl
@[simp] theorem State.raise_e0 : (s.raise c x y).e0 = s.e0 := rfl
@[simp] theorem State.raise_e1 : (s.raise c x y).e1 = s.e1 := rfl
@[simp] theorem State.raise_pal : (s.raise c x y).pal = s.pal := rfl
@[simp] theorem State.raise_chOut : (s.raise c x y).chOut = s.chOut := rfl
@[simp] theorem State.raise_colOut : (s.raise c x y).colOut = s.colOut := rfl
@[simp] theorem State.raise_sin : (s.raise c x y).sin = s.sin := rfl
@[simp] theorem State.raise_inbox : (s.raise c x y).inbox = s.inbox := rfl
@[simp] theorem State.raise_epoch : (s.raise c x y).epoch = s.epoch := rfl
@[simp] theorem State.raise_params : (s.raise c x y).params = s.params := rfl

end

section
variable (s : State) (w h : Word) (f : TexFormat) (n : Nat)

@[simp] theorem State.completeRead_state : (s.completeRead w h f n).state = .doneOk := rfl
@[simp] theorem State.completeRead_op : (s.completeRead w h f n).op = s.op := rfl
@[simp] theorem State.completeRead_cmdRej : (s.completeRead w h f n).cmdRej = s.cmdRej := rfl
@[simp] theorem State.completeRead_errKind : (s.completeRead w h f n).errKind = .none := rfl
@[simp] theorem State.completeRead_errCode : (s.completeRead w h f n).errCode = 0 := rfl
@[simp] theorem State.completeRead_errExp : (s.completeRead w h f n).errExp = 0 := rfl
@[simp] theorem State.completeRead_errFnd : (s.completeRead w h f n).errFnd = 0 := rfl
@[simp] theorem State.completeRead_tWidth : (s.completeRead w h f n).tWidth = w := rfl
@[simp] theorem State.completeRead_tHeight : (s.completeRead w h f n).tHeight = h := rfl
@[simp] theorem State.completeRead_tFormat : (s.completeRead w h f n).tFormat = f := rfl
@[simp] theorem State.completeRead_tPaylen : (s.completeRead w h f n).tPaylen = n := rfl
@[simp] theorem State.completeRead_spos : (s.completeRead w h f n).spos = s.spos := rfl
@[simp] theorem State.completeRead_dWidth : (s.completeRead w h f n).dWidth = s.dWidth := rfl
@[simp] theorem State.completeRead_dHeight : (s.completeRead w h f n).dHeight = s.dHeight := rfl
@[simp] theorem State.completeRead_dDatalen : (s.completeRead w h f n).dDatalen = s.dDatalen := rfl
@[simp] theorem State.completeRead_dRaslen : (s.completeRead w h f n).dRaslen = s.dRaslen := rfl
@[simp] theorem State.completeRead_dbuf : (s.completeRead w h f n).dbuf = s.dbuf := rfl
@[simp] theorem State.completeRead_pbuf : (s.completeRead w h f n).pbuf = s.pbuf := rfl
@[simp] theorem State.completeRead_rbuf : (s.completeRead w h f n).rbuf = s.rbuf := rfl
@[simp] theorem State.completeRead_phase : (s.completeRead w h f n).phase = .pDone := rfl
@[simp] theorem State.completeRead_bidx : (s.completeRead w h f n).bidx = s.bidx := rfl
@[simp] theorem State.completeRead_pix : (s.completeRead w h f n).pix = s.pix := rfl
@[simp] theorem State.completeRead_magicBuf : (s.completeRead w h f n).magicBuf = s.magicBuf := rfl
@[simp] theorem State.completeRead_hdrBuf : (s.completeRead w h f n).hdrBuf = s.hdrBuf := rfl
@[simp] theorem State.completeRead_fmtSel : (s.completeRead w h f n).fmtSel = s.fmtSel := rfl
@[simp] theorem State.completeRead_argWidth : (s.completeRead w h f n).argWidth = s.argWidth := rfl
@[simp] theorem State.completeRead_argHeight : (s.completeRead w h f n).argHeight = s.argHeight := rfl
@[simp] theorem State.completeRead_argDatalen : (s.completeRead w h f n).argDatalen = s.argDatalen := rfl
@[simp] theorem State.completeRead_color0 : (s.completeRead w h f n).color0 = s.color0 := rfl
@[simp] theorem State.completeRead_color1 : (s.completeRead w h f n).color1 = s.color1 := rfl
@[simp] theorem State.completeRead_indices : (s.completeRead w h f n).indices = s.indices := rfl
@[simp] theorem State.completeRead_e0 : (s.completeRead w h f n).e0 = s.e0 := rfl
@[simp] theorem State.completeRead_e1 : (s.completeRead w h f n).e1 = s.e1 := rfl
@[simp] theorem State.completeRead_pal : (s.completeRead w h f n).pal = s.pal := rfl
@[simp] theorem State.completeRead_chOut : (s.completeRead w h f n).chOut = s.chOut := rfl
@[simp] theorem State.completeRead_colOut : (s.completeRead w h f n).colOut = s.colOut := rfl
@[simp] theorem State.completeRead_sin : (s.completeRead w h f n).sin = s.sin := rfl
@[simp] theorem State.completeRead_inbox : (s.completeRead w h f n).inbox = s.inbox := rfl
@[simp] theorem State.completeRead_epoch : (s.completeRead w h f n).epoch = s.epoch := rfl
@[simp] theorem State.completeRead_params : (s.completeRead w h f n).params = s.params := rfl

end

section
variable (s : State)

@[simp] theorem State.completeDecode_state : s.completeDecode.state = .doneOk := rfl
@[simp] theorem State.completeDecode_op : s.completeDecode.op = s.op := rfl
@[simp] theorem State.completeDecode_cmdRej : s.completeDecode.cmdRej = s.cmdRej := rfl
@[simp] theorem State.completeDecode_errKind : s.completeDecode.errKind = .none := rfl
@[simp] theorem State.completeDecode_errCode : s.completeDecode.errCode = 0 := rfl
@[simp] theorem State.completeDecode_errExp : s.completeDecode.errExp = 0 := rfl
@[simp] theorem State.completeDecode_errFnd : s.completeDecode.errFnd = 0 := rfl
@[simp] theorem State.completeDecode_tWidth : s.completeDecode.tWidth = s.tWidth := rfl
@[simp] theorem State.completeDecode_tHeight : s.completeDecode.tHeight = s.tHeight := rfl
@[simp] theorem State.completeDecode_tFormat : s.completeDecode.tFormat = s.tFormat := rfl
@[simp] theorem State.completeDecode_tPaylen : s.completeDecode.tPaylen = s.tPaylen := rfl
@[simp] theorem State.completeDecode_spos : s.completeDecode.spos = s.spos := rfl
@[simp] theorem State.completeDecode_dWidth : s.completeDecode.dWidth = s.dWidth := rfl
@[simp] theorem State.completeDecode_dHeight : s.completeDecode.dHeight = s.dHeight := rfl
@[simp] theorem State.completeDecode_dDatalen : s.completeDecode.dDatalen = s.dDatalen := rfl
@[simp] theorem State.completeDecode_dRaslen : s.completeDecode.dRaslen = rasterBytes s.argWidth s.argHeight := rfl
@[simp] theorem State.completeDecode_dbuf : s.completeDecode.dbuf = s.dbuf := rfl
@[simp] theorem State.completeDecode_pbuf : s.completeDecode.pbuf = s.pbuf := rfl
@[simp] theorem State.completeDecode_rbuf : s.completeDecode.rbuf = s.rbuf := rfl
@[simp] theorem State.completeDecode_phase : s.completeDecode.phase = .pDone := rfl
@[simp] theorem State.completeDecode_bidx : s.completeDecode.bidx = s.bidx := rfl
@[simp] theorem State.completeDecode_pix : s.completeDecode.pix = s.pix := rfl
@[simp] theorem State.completeDecode_magicBuf : s.completeDecode.magicBuf = s.magicBuf := rfl
@[simp] theorem State.completeDecode_hdrBuf : s.completeDecode.hdrBuf = s.hdrBuf := rfl
@[simp] theorem State.completeDecode_fmtSel : s.completeDecode.fmtSel = s.fmtSel := rfl
@[simp] theorem State.completeDecode_argWidth : s.completeDecode.argWidth = s.argWidth := rfl
@[simp] theorem State.completeDecode_argHeight : s.completeDecode.argHeight = s.argHeight := rfl
@[simp] theorem State.completeDecode_argDatalen : s.completeDecode.argDatalen = s.argDatalen := rfl
@[simp] theorem State.completeDecode_color0 : s.completeDecode.color0 = s.color0 := rfl
@[simp] theorem State.completeDecode_color1 : s.completeDecode.color1 = s.color1 := rfl
@[simp] theorem State.completeDecode_indices : s.completeDecode.indices = s.indices := rfl
@[simp] theorem State.completeDecode_e0 : s.completeDecode.e0 = s.e0 := rfl
@[simp] theorem State.completeDecode_e1 : s.completeDecode.e1 = s.e1 := rfl
@[simp] theorem State.completeDecode_pal : s.completeDecode.pal = s.pal := rfl
@[simp] theorem State.completeDecode_chOut : s.completeDecode.chOut = s.chOut := rfl
@[simp] theorem State.completeDecode_colOut : s.completeDecode.colOut = s.colOut := rfl
@[simp] theorem State.completeDecode_sin : s.completeDecode.sin = s.sin := rfl
@[simp] theorem State.completeDecode_inbox : s.completeDecode.inbox = s.inbox := rfl
@[simp] theorem State.completeDecode_epoch : s.completeDecode.epoch = s.epoch := rfl
@[simp] theorem State.completeDecode_params : s.completeDecode.params = s.params := rfl

end

section
variable (s : State) (g : List Byte) (r : List StreamItem)

@[simp] theorem State.pulled_state : (s.pulled g r).state = s.state := rfl
@[simp] theorem State.pulled_op : (s.pulled g r).op = s.op := rfl
@[simp] theorem State.pulled_cmdRej : (s.pulled g r).cmdRej = s.cmdRej := rfl
@[simp] theorem State.pulled_errKind : (s.pulled g r).errKind = s.errKind := rfl
@[simp] theorem State.pulled_errCode : (s.pulled g r).errCode = s.errCode := rfl
@[simp] theorem State.pulled_errExp : (s.pulled g r).errExp = s.errExp := rfl
@[simp] theorem State.pulled_errFnd : (s.pulled g r).errFnd = s.errFnd := rfl
@[simp] theorem State.pulled_tWidth : (s.pulled g r).tWidth = s.tWidth := rfl
@[simp] theorem State.pulled_tHeight : (s.pulled g r).tHeight = s.tHeight := rfl
@[simp] theorem State.pulled_tFormat : (s.pulled g r).tFormat = s.tFormat := rfl
@[simp] theorem State.pulled_tPaylen : (s.pulled g r).tPaylen = s.tPaylen := rfl
@[simp] theorem State.pulled_spos : (s.pulled g r).spos = s.spos + g.length := rfl
@[simp] theorem State.pulled_dWidth : (s.pulled g r).dWidth = s.dWidth := rfl
@[simp] theorem State.pulled_dHeight : (s.pulled g r).dHeight = s.dHeight := rfl
@[simp] theorem State.pulled_dDatalen : (s.pulled g r).dDatalen = s.dDatalen := rfl
@[simp] theorem State.pulled_dRaslen : (s.pulled g r).dRaslen = s.dRaslen := rfl
@[simp] theorem State.pulled_dbuf : (s.pulled g r).dbuf = s.dbuf := rfl
@[simp] theorem State.pulled_pbuf : (s.pulled g r).pbuf = s.pbuf := rfl
@[simp] theorem State.pulled_rbuf : (s.pulled g r).rbuf = s.rbuf := rfl
@[simp] theorem State.pulled_phase : (s.pulled g r).phase = s.phase := rfl
@[simp] theorem State.pulled_bidx : (s.pulled g r).bidx = s.bidx := rfl
@[simp] theorem State.pulled_pix : (s.pulled g r).pix = s.pix := rfl
@[simp] theorem State.pulled_magicBuf : (s.pulled g r).magicBuf = s.magicBuf := rfl
@[simp] theorem State.pulled_hdrBuf : (s.pulled g r).hdrBuf = s.hdrBuf := rfl
@[simp] theorem State.pulled_fmtSel : (s.pulled g r).fmtSel = s.fmtSel := rfl
@[simp] theorem State.pulled_argWidth : (s.pulled g r).argWidth = s.argWidth := rfl
@[simp] theorem State.pulled_argHeight : (s.pulled g r).argHeight = s.argHeight := rfl
@[simp] theorem State.pulled_argDatalen : (s.pulled g r).argDatalen = s.argDatalen := rfl
@[simp] theorem State.pulled_color0 : (s.pulled g r).color0 = s.color0 := rfl
@[simp] theorem State.pulled_color1 : (s.pulled g r).color1 = s.color1 := rfl
@[simp] theorem State.pulled_indices : (s.pulled g r).indices = s.indices := rfl
@[simp] theorem State.pulled_e0 : (s.pulled g r).e0 = s.e0 := rfl
@[simp] theorem State.pulled_e1 : (s.pulled g r).e1 = s.e1 := rfl
@[simp] theorem State.pulled_pal : (s.pulled g r).pal = s.pal := rfl
@[simp] theorem State.pulled_chOut : (s.pulled g r).chOut = s.chOut := rfl
@[simp] theorem State.pulled_colOut : (s.pulled g r).colOut = s.colOut := rfl
@[simp] theorem State.pulled_sin : (s.pulled g r).sin = r := rfl
@[simp] theorem State.pulled_inbox : (s.pulled g r).inbox = s.inbox := rfl
@[simp] theorem State.pulled_epoch : (s.pulled g r).epoch = s.epoch := rfl
@[simp] theorem State.pulled_params : (s.pulled g r).params = s.params := rfl

end

section
variable (s : State) (g : List Byte) (r : List StreamItem)

@[simp] theorem State.storeMagic_state : (s.storeMagic g r).state = s.state := rfl
@[simp] theorem State.storeMagic_op : (s.storeMagic g r).op = s.op := rfl
@[simp] theorem State.storeMagic_cmdRej : (s.storeMagic g r).cmdRej = s.cmdRej := rfl
@[simp] theorem State.storeMagic_errKind : (s.storeMagic g r).errKind = s.errKind := rfl
@[simp] theorem State.storeMagic_errCode : (s.storeMagic g r).errCode = s.errCode := rfl
@[simp] theorem State.storeMagic_errExp : (s.storeMagic g r).errExp = s.errExp := rfl
@[simp] theorem State.storeMagic_errFnd : (s.storeMagic g r).errFnd = s.errFnd := rfl
@[simp] theorem State.storeMagic_tWidth : (s.storeMagic g r).tWidth = s.tWidth := rfl
@[simp] theorem State.storeMagic_tHeight : (s.storeMagic g r).tHeight = s.tHeight := rfl
@[simp] theorem State.storeMagic_tFormat : (s.storeMagic g r).tFormat = s.tFormat := rfl
@[simp] theorem State.storeMagic_tPaylen : (s.storeMagic g r).tPaylen = s.tPaylen := rfl
@[simp] theorem State.storeMagic_spos : (s.storeMagic g r).spos = s.spos + g.length := rfl
@[simp] theorem State.storeMagic_dWidth : (s.storeMagic g r).dWidth = s.dWidth := rfl
@[simp] theorem State.storeMagic_dHeight : (s.storeMagic g r).dHeight = s.dHeight := rfl
@[simp] theorem State.storeMagic_dDatalen : (s.storeMagic g r).dDatalen = s.dDatalen := rfl
@[simp] theorem State.storeMagic_dRaslen : (s.storeMagic g r).dRaslen = s.dRaslen := rfl
@[simp] theorem State.storeMagic_dbuf : (s.storeMagic g r).dbuf = s.dbuf := rfl
@[simp] theorem State.storeMagic_pbuf : (s.storeMagic g r).pbuf = s.pbuf := rfl
@[simp] theorem State.storeMagic_rbuf : (s.storeMagic g r).rbuf = s.rbuf := rfl
@[simp] theorem State.storeMagic_phase : (s.storeMagic g r).phase = s.phase := rfl
@[simp] theorem State.storeMagic_bidx : (s.storeMagic g r).bidx = s.bidx := rfl
@[simp] theorem State.storeMagic_pix : (s.storeMagic g r).pix = s.pix := rfl
@[simp] theorem State.storeMagic_magicBuf : (s.storeMagic g r).magicBuf = s.magicBuf ++ g := rfl
@[simp] theorem State.storeMagic_hdrBuf : (s.storeMagic g r).hdrBuf = s.hdrBuf := rfl
@[simp] theorem State.storeMagic_fmtSel : (s.storeMagic g r).fmtSel = s.fmtSel := rfl
@[simp] theorem State.storeMagic_argWidth : (s.storeMagic g r).argWidth = s.argWidth := rfl
@[simp] theorem State.storeMagic_argHeight : (s.storeMagic g r).argHeight = s.argHeight := rfl
@[simp] theorem State.storeMagic_argDatalen : (s.storeMagic g r).argDatalen = s.argDatalen := rfl
@[simp] theorem State.storeMagic_color0 : (s.storeMagic g r).color0 = s.color0 := rfl
@[simp] theorem State.storeMagic_color1 : (s.storeMagic g r).color1 = s.color1 := rfl
@[simp] theorem State.storeMagic_indices : (s.storeMagic g r).indices = s.indices := rfl
@[simp] theorem State.storeMagic_e0 : (s.storeMagic g r).e0 = s.e0 := rfl
@[simp] theorem State.storeMagic_e1 : (s.storeMagic g r).e1 = s.e1 := rfl
@[simp] theorem State.storeMagic_pal : (s.storeMagic g r).pal = s.pal := rfl
@[simp] theorem State.storeMagic_chOut : (s.storeMagic g r).chOut = s.chOut := rfl
@[simp] theorem State.storeMagic_colOut : (s.storeMagic g r).colOut = s.colOut := rfl
@[simp] theorem State.storeMagic_sin : (s.storeMagic g r).sin = r := rfl
@[simp] theorem State.storeMagic_inbox : (s.storeMagic g r).inbox = s.inbox := rfl
@[simp] theorem State.storeMagic_epoch : (s.storeMagic g r).epoch = s.epoch := rfl
@[simp] theorem State.storeMagic_params : (s.storeMagic g r).params = s.params := rfl

end

section
variable (s : State) (g : List Byte) (r : List StreamItem)

@[simp] theorem State.storeHeader_state : (s.storeHeader g r).state = s.state := rfl
@[simp] theorem State.storeHeader_op : (s.storeHeader g r).op = s.op := rfl
@[simp] theorem State.storeHeader_cmdRej : (s.storeHeader g r).cmdRej = s.cmdRej := rfl
@[simp] theorem State.storeHeader_errKind : (s.storeHeader g r).errKind = s.errKind := rfl
@[simp] theorem State.storeHeader_errCode : (s.storeHeader g r).errCode = s.errCode := rfl
@[simp] theorem State.storeHeader_errExp : (s.storeHeader g r).errExp = s.errExp := rfl
@[simp] theorem State.storeHeader_errFnd : (s.storeHeader g r).errFnd = s.errFnd := rfl
@[simp] theorem State.storeHeader_tWidth : (s.storeHeader g r).tWidth = s.tWidth := rfl
@[simp] theorem State.storeHeader_tHeight : (s.storeHeader g r).tHeight = s.tHeight := rfl
@[simp] theorem State.storeHeader_tFormat : (s.storeHeader g r).tFormat = s.tFormat := rfl
@[simp] theorem State.storeHeader_tPaylen : (s.storeHeader g r).tPaylen = s.tPaylen := rfl
@[simp] theorem State.storeHeader_spos : (s.storeHeader g r).spos = s.spos + g.length := rfl
@[simp] theorem State.storeHeader_dWidth : (s.storeHeader g r).dWidth = s.dWidth := rfl
@[simp] theorem State.storeHeader_dHeight : (s.storeHeader g r).dHeight = s.dHeight := rfl
@[simp] theorem State.storeHeader_dDatalen : (s.storeHeader g r).dDatalen = s.dDatalen := rfl
@[simp] theorem State.storeHeader_dRaslen : (s.storeHeader g r).dRaslen = s.dRaslen := rfl
@[simp] theorem State.storeHeader_dbuf : (s.storeHeader g r).dbuf = s.dbuf := rfl
@[simp] theorem State.storeHeader_pbuf : (s.storeHeader g r).pbuf = s.pbuf := rfl
@[simp] theorem State.storeHeader_rbuf : (s.storeHeader g r).rbuf = s.rbuf := rfl
@[simp] theorem State.storeHeader_phase : (s.storeHeader g r).phase = s.phase := rfl
@[simp] theorem State.storeHeader_bidx : (s.storeHeader g r).bidx = s.bidx := rfl
@[simp] theorem State.storeHeader_pix : (s.storeHeader g r).pix = s.pix := rfl
@[simp] theorem State.storeHeader_magicBuf : (s.storeHeader g r).magicBuf = s.magicBuf := rfl
@[simp] theorem State.storeHeader_hdrBuf : (s.storeHeader g r).hdrBuf = s.hdrBuf ++ g := rfl
@[simp] theorem State.storeHeader_fmtSel : (s.storeHeader g r).fmtSel = s.fmtSel := rfl
@[simp] theorem State.storeHeader_argWidth : (s.storeHeader g r).argWidth = s.argWidth := rfl
@[simp] theorem State.storeHeader_argHeight : (s.storeHeader g r).argHeight = s.argHeight := rfl
@[simp] theorem State.storeHeader_argDatalen : (s.storeHeader g r).argDatalen = s.argDatalen := rfl
@[simp] theorem State.storeHeader_color0 : (s.storeHeader g r).color0 = s.color0 := rfl
@[simp] theorem State.storeHeader_color1 : (s.storeHeader g r).color1 = s.color1 := rfl
@[simp] theorem State.storeHeader_indices : (s.storeHeader g r).indices = s.indices := rfl
@[simp] theorem State.storeHeader_e0 : (s.storeHeader g r).e0 = s.e0 := rfl
@[simp] theorem State.storeHeader_e1 : (s.storeHeader g r).e1 = s.e1 := rfl
@[simp] theorem State.storeHeader_pal : (s.storeHeader g r).pal = s.pal := rfl
@[simp] theorem State.storeHeader_chOut : (s.storeHeader g r).chOut = s.chOut := rfl
@[simp] theorem State.storeHeader_colOut : (s.storeHeader g r).colOut = s.colOut := rfl
@[simp] theorem State.storeHeader_sin : (s.storeHeader g r).sin = r := rfl
@[simp] theorem State.storeHeader_inbox : (s.storeHeader g r).inbox = s.inbox := rfl
@[simp] theorem State.storeHeader_epoch : (s.storeHeader g r).epoch = s.epoch := rfl
@[simp] theorem State.storeHeader_params : (s.storeHeader g r).params = s.params := rfl

end

section
variable (s : State) (g : List Byte) (r : List StreamItem)

@[simp] theorem State.storePayload_state : (s.storePayload g r).state = s.state := rfl
@[simp] theorem State.storePayload_op : (s.storePayload g r).op = s.op := rfl
@[simp] theorem State.storePayload_cmdRej : (s.storePayload g r).cmdRej = s.cmdRej := rfl
@[simp] theorem State.storePayload_errKind : (s.storePayload g r).errKind = s.errKind := rfl
@[simp] theorem State.storePayload_errCode : (s.storePayload g r).errCode = s.errCode := rfl
@[simp] theorem State.storePayload_errExp : (s.storePayload g r).errExp = s.errExp := rfl
@[simp] theorem State.storePayload_errFnd : (s.storePayload g r).errFnd = s.errFnd := rfl
@[simp] theorem State.storePayload_tWidth : (s.storePayload g r).tWidth = s.tWidth := rfl
@[simp] theorem State.storePayload_tHeight : (s.storePayload g r).tHeight = s.tHeight := rfl
@[simp] theorem State.storePayload_tFormat : (s.storePayload g r).tFormat = s.tFormat := rfl
@[simp] theorem State.storePayload_tPaylen : (s.storePayload g r).tPaylen = s.tPaylen := rfl
@[simp] theorem State.storePayload_spos : (s.storePayload g r).spos = s.spos + g.length := rfl
@[simp] theorem State.storePayload_dWidth : (s.storePayload g r).dWidth = s.dWidth := rfl
@[simp] theorem State.storePayload_dHeight : (s.storePayload g r).dHeight = s.dHeight := rfl
@[simp] theorem State.storePayload_dDatalen : (s.storePayload g r).dDatalen = s.dDatalen := rfl
@[simp] theorem State.storePayload_dRaslen : (s.storePayload g r).dRaslen = s.dRaslen := rfl
@[simp] theorem State.storePayload_dbuf : (s.storePayload g r).dbuf = s.dbuf := rfl
@[simp] theorem State.storePayload_pbuf : (s.storePayload g r).pbuf = s.pbuf.writeList s.payloadGot g := rfl
@[simp] theorem State.storePayload_rbuf : (s.storePayload g r).rbuf = s.rbuf := rfl
@[simp] theorem State.storePayload_phase : (s.storePayload g r).phase = s.phase := rfl
@[simp] theorem State.storePayload_bidx : (s.storePayload g r).bidx = s.bidx := rfl
@[simp] theorem State.storePayload_pix : (s.storePayload g r).pix = s.pix := rfl
@[simp] theorem State.storePayload_magicBuf : (s.storePayload g r).magicBuf = s.magicBuf := rfl
@[simp] theorem State.storePayload_hdrBuf : (s.storePayload g r).hdrBuf = s.hdrBuf := rfl
@[simp] theorem State.storePayload_fmtSel : (s.storePayload g r).fmtSel = s.fmtSel := rfl
@[simp] theorem State.storePayload_argWidth : (s.storePayload g r).argWidth = s.argWidth := rfl
@[simp] theorem State.storePayload_argHeight : (s.storePayload g r).argHeight = s.argHeight := rfl
@[simp] theorem State.storePayload_argDatalen : (s.storePayload g r).argDatalen = s.argDatalen := rfl
@[simp] theorem State.storePayload_color0 : (s.storePayload g r).color0 = s.color0 := rfl
@[simp] theorem State.storePayload_color1 : (s.storePayload g r).color1 = s.color1 := rfl
@[simp] theorem State.storePayload_indices : (s.storePayload g r).indices = s.indices := rfl
@[simp] theorem State.storePayload_e0 : (s.storePayload g r).e0 = s.e0 := rfl
@[simp] theorem State.storePayload_e1 : (s.storePayload g r).e1 = s.e1 := rfl
@[simp] theorem State.storePayload_pal : (s.storePayload g r).pal = s.pal := rfl
@[simp] theorem State.storePayload_chOut : (s.storePayload g r).chOut = s.chOut := rfl
@[simp] theorem State.storePayload_colOut : (s.storePayload g r).colOut = s.colOut := rfl
@[simp] theorem State.storePayload_sin : (s.storePayload g r).sin = r := rfl
@[simp] theorem State.storePayload_inbox : (s.storePayload g r).inbox = s.inbox := rfl
@[simp] theorem State.storePayload_epoch : (s.storePayload g r).epoch = s.epoch := rfl
@[simp] theorem State.storePayload_params : (s.storePayload g r).params = s.params := rfl

end

section
variable (s : State) (f : TexFormat)

@[simp] theorem State.selectFormat_state : (s.selectFormat f).state = s.state := rfl
@[simp] theorem State.selectFormat_op : (s.selectFormat f).op = s.op := rfl
@[simp] theorem State.selectFormat_cmdRej : (s.selectFormat f).cmdRej = s.cmdRej := rfl
@[simp] theorem State.selectFormat_errKind : (s.selectFormat f).errKind = s.errKind := rfl
@[simp] theorem State.selectFormat_errCode : (s.selectFormat f).errCode = s.errCode := rfl
@[simp] theorem State.selectFormat_errExp : (s.selectFormat f).errExp = s.errExp := rfl
@[simp] theorem State.selectFormat_errFnd : (s.selectFormat f).errFnd = s.errFnd := rfl
@[simp] theorem State.selectFormat_tWidth : (s.selectFormat f).tWidth = s.tWidth := rfl
@[simp] theorem State.selectFormat_tHeight : (s.selectFormat f).tHeight = s.tHeight := rfl
@[simp] theorem State.selectFormat_tFormat : (s.selectFormat f).tFormat = s.tFormat := rfl
@[simp] theorem State.selectFormat_tPaylen : (s.selectFormat f).tPaylen = s.tPaylen := rfl
@[simp] theorem State.selectFormat_spos : (s.selectFormat f).spos = s.spos := rfl
@[simp] theorem State.selectFormat_dWidth : (s.selectFormat f).dWidth = s.dWidth := rfl
@[simp] theorem State.selectFormat_dHeight : (s.selectFormat f).dHeight = s.dHeight := rfl
@[simp] theorem State.selectFormat_dDatalen : (s.selectFormat f).dDatalen = s.dDatalen := rfl
@[simp] theorem State.selectFormat_dRaslen : (s.selectFormat f).dRaslen = s.dRaslen := rfl
@[simp] theorem State.selectFormat_dbuf : (s.selectFormat f).dbuf = s.dbuf := rfl
@[simp] theorem State.selectFormat_pbuf : (s.selectFormat f).pbuf = s.pbuf := rfl
@[simp] theorem State.selectFormat_rbuf : (s.selectFormat f).rbuf = s.rbuf := rfl
@[simp] theorem State.selectFormat_phase : (s.selectFormat f).phase = s.phase := rfl
@[simp] theorem State.selectFormat_bidx : (s.selectFormat f).bidx = s.bidx := rfl
@[simp] theorem State.selectFormat_pix : (s.selectFormat f).pix = s.pix := rfl
@[simp] theorem State.selectFormat_magicBuf : (s.selectFormat f).magicBuf = s.magicBuf := rfl
@[simp] theorem State.selectFormat_hdrBuf : (s.selectFormat f).hdrBuf = s.hdrBuf := rfl
@[simp] theorem State.selectFormat_fmtSel : (s.selectFormat f).fmtSel = f := rfl
@[simp] theorem State.selectFormat_argWidth : (s.selectFormat f).argWidth = s.argWidth := rfl
@[simp] theorem State.selectFormat_argHeight : (s.selectFormat f).argHeight = s.argHeight := rfl
@[simp] theorem State.selectFormat_argDatalen : (s.selectFormat f).argDatalen = s.argDatalen := rfl
@[simp] theorem State.selectFormat_color0 : (s.selectFormat f).color0 = s.color0 := rfl
@[simp] theorem State.selectFormat_color1 : (s.selectFormat f).color1 = s.color1 := rfl
@[simp] theorem State.selectFormat_indices : (s.selectFormat f).indices = s.indices := rfl
@[simp] theorem State.selectFormat_e0 : (s.selectFormat f).e0 = s.e0 := rfl
@[simp] theorem State.selectFormat_e1 : (s.selectFormat f).e1 = s.e1 := rfl
@[simp] theorem State.selectFormat_pal : (s.selectFormat f).pal = s.pal := rfl
@[simp] theorem State.selectFormat_chOut : (s.selectFormat f).chOut = s.chOut := rfl
@[simp] theorem State.selectFormat_colOut : (s.selectFormat f).colOut = s.colOut := rfl
@[simp] theorem State.selectFormat_sin : (s.selectFormat f).sin = s.sin := rfl
@[simp] theorem State.selectFormat_inbox : (s.selectFormat f).inbox = s.inbox := rfl
@[simp] theorem State.selectFormat_epoch : (s.selectFormat f).epoch = s.epoch := rfl
@[simp] theorem State.selectFormat_params : (s.selectFormat f).params = s.params := rfl

end

section
variable (s : State) (c d : Half) (i : Word) (p : Palette)

@[simp] theorem State.loadBlock_state : (s.loadBlock c d i p).state = s.state := rfl
@[simp] theorem State.loadBlock_op : (s.loadBlock c d i p).op = s.op := rfl
@[simp] theorem State.loadBlock_cmdRej : (s.loadBlock c d i p).cmdRej = s.cmdRej := rfl
@[simp] theorem State.loadBlock_errKind : (s.loadBlock c d i p).errKind = s.errKind := rfl
@[simp] theorem State.loadBlock_errCode : (s.loadBlock c d i p).errCode = s.errCode := rfl
@[simp] theorem State.loadBlock_errExp : (s.loadBlock c d i p).errExp = s.errExp := rfl
@[simp] theorem State.loadBlock_errFnd : (s.loadBlock c d i p).errFnd = s.errFnd := rfl
@[simp] theorem State.loadBlock_tWidth : (s.loadBlock c d i p).tWidth = s.tWidth := rfl
@[simp] theorem State.loadBlock_tHeight : (s.loadBlock c d i p).tHeight = s.tHeight := rfl
@[simp] theorem State.loadBlock_tFormat : (s.loadBlock c d i p).tFormat = s.tFormat := rfl
@[simp] theorem State.loadBlock_tPaylen : (s.loadBlock c d i p).tPaylen = s.tPaylen := rfl
@[simp] theorem State.loadBlock_spos : (s.loadBlock c d i p).spos = s.spos := rfl
@[simp] theorem State.loadBlock_dWidth : (s.loadBlock c d i p).dWidth = s.dWidth := rfl
@[simp] theorem State.loadBlock_dHeight : (s.loadBlock c d i p).dHeight = s.dHeight := rfl
@[simp] theorem State.loadBlock_dDatalen : (s.loadBlock c d i p).dDatalen = s.dDatalen := rfl
@[simp] theorem State.loadBlock_dRaslen : (s.loadBlock c d i p).dRaslen = s.dRaslen := rfl
@[simp] theorem State.loadBlock_dbuf : (s.loadBlock c d i p).dbuf = s.dbuf := rfl
@[simp] theorem State.loadBlock_pbuf : (s.loadBlock c d i p).pbuf = s.pbuf := rfl
@[simp] theorem State.loadBlock_rbuf : (s.loadBlock c d i p).rbuf = s.rbuf := rfl
@[simp] theorem State.loadBlock_phase : (s.loadBlock c d i p).phase = s.phase := rfl
@[simp] theorem State.loadBlock_bidx : (s.loadBlock c d i p).bidx = s.bidx := rfl
@[simp] theorem State.loadBlock_pix : (s.loadBlock c d i p).pix = s.pix := rfl
@[simp] theorem State.loadBlock_magicBuf : (s.loadBlock c d i p).magicBuf = s.magicBuf := rfl
@[simp] theorem State.loadBlock_hdrBuf : (s.loadBlock c d i p).hdrBuf = s.hdrBuf := rfl
@[simp] theorem State.loadBlock_fmtSel : (s.loadBlock c d i p).fmtSel = s.fmtSel := rfl
@[simp] theorem State.loadBlock_argWidth : (s.loadBlock c d i p).argWidth = s.argWidth := rfl
@[simp] theorem State.loadBlock_argHeight : (s.loadBlock c d i p).argHeight = s.argHeight := rfl
@[simp] theorem State.loadBlock_argDatalen : (s.loadBlock c d i p).argDatalen = s.argDatalen := rfl
@[simp] theorem State.loadBlock_color0 : (s.loadBlock c d i p).color0 = c := rfl
@[simp] theorem State.loadBlock_color1 : (s.loadBlock c d i p).color1 = d := rfl
@[simp] theorem State.loadBlock_indices : (s.loadBlock c d i p).indices = i := rfl
@[simp] theorem State.loadBlock_e0 : (s.loadBlock c d i p).e0 = cx565 c := rfl
@[simp] theorem State.loadBlock_e1 : (s.loadBlock c d i p).e1 = cx565 d := rfl
@[simp] theorem State.loadBlock_pal : (s.loadBlock c d i p).pal = p := rfl
@[simp] theorem State.loadBlock_chOut : (s.loadBlock c d i p).chOut = s.chOut := rfl
@[simp] theorem State.loadBlock_colOut : (s.loadBlock c d i p).colOut = s.colOut := rfl
@[simp] theorem State.loadBlock_sin : (s.loadBlock c d i p).sin = s.sin := rfl
@[simp] theorem State.loadBlock_inbox : (s.loadBlock c d i p).inbox = s.inbox := rfl
@[simp] theorem State.loadBlock_epoch : (s.loadBlock c d i p).epoch = s.epoch := rfl
@[simp] theorem State.loadBlock_params : (s.loadBlock c d i p).params = s.params := rfl

end

section
variable (s : State) (q : Phase)

@[simp] theorem State.enter_state : (s.enter q).state = s.state := rfl
@[simp] theorem State.enter_op : (s.enter q).op = s.op := rfl
@[simp] theorem State.enter_cmdRej : (s.enter q).cmdRej = s.cmdRej := rfl
@[simp] theorem State.enter_errKind : (s.enter q).errKind = s.errKind := rfl
@[simp] theorem State.enter_errCode : (s.enter q).errCode = s.errCode := rfl
@[simp] theorem State.enter_errExp : (s.enter q).errExp = s.errExp := rfl
@[simp] theorem State.enter_errFnd : (s.enter q).errFnd = s.errFnd := rfl
@[simp] theorem State.enter_tWidth : (s.enter q).tWidth = s.tWidth := rfl
@[simp] theorem State.enter_tHeight : (s.enter q).tHeight = s.tHeight := rfl
@[simp] theorem State.enter_tFormat : (s.enter q).tFormat = s.tFormat := rfl
@[simp] theorem State.enter_tPaylen : (s.enter q).tPaylen = s.tPaylen := rfl
@[simp] theorem State.enter_spos : (s.enter q).spos = s.spos := rfl
@[simp] theorem State.enter_dWidth : (s.enter q).dWidth = s.dWidth := rfl
@[simp] theorem State.enter_dHeight : (s.enter q).dHeight = s.dHeight := rfl
@[simp] theorem State.enter_dDatalen : (s.enter q).dDatalen = s.dDatalen := rfl
@[simp] theorem State.enter_dRaslen : (s.enter q).dRaslen = s.dRaslen := rfl
@[simp] theorem State.enter_dbuf : (s.enter q).dbuf = s.dbuf := rfl
@[simp] theorem State.enter_pbuf : (s.enter q).pbuf = s.pbuf := rfl
@[simp] theorem State.enter_rbuf : (s.enter q).rbuf = s.rbuf := rfl
@[simp] theorem State.enter_phase : (s.enter q).phase = q := rfl
@[simp] theorem State.enter_bidx : (s.enter q).bidx = s.bidx := rfl
@[simp] theorem State.enter_pix : (s.enter q).pix = s.pix := rfl
@[simp] theorem State.enter_magicBuf : (s.enter q).magicBuf = s.magicBuf := rfl
@[simp] theorem State.enter_hdrBuf : (s.enter q).hdrBuf = s.hdrBuf := rfl
@[simp] theorem State.enter_fmtSel : (s.enter q).fmtSel = s.fmtSel := rfl
@[simp] theorem State.enter_argWidth : (s.enter q).argWidth = s.argWidth := rfl
@[simp] theorem State.enter_argHeight : (s.enter q).argHeight = s.argHeight := rfl
@[simp] theorem State.enter_argDatalen : (s.enter q).argDatalen = s.argDatalen := rfl
@[simp] theorem State.enter_color0 : (s.enter q).color0 = s.color0 := rfl
@[simp] theorem State.enter_color1 : (s.enter q).color1 = s.color1 := rfl
@[simp] theorem State.enter_indices : (s.enter q).indices = s.indices := rfl
@[simp] theorem State.enter_e0 : (s.enter q).e0 = s.e0 := rfl
@[simp] theorem State.enter_e1 : (s.enter q).e1 = s.e1 := rfl
@[simp] theorem State.enter_pal : (s.enter q).pal = s.pal := rfl
@[simp] theorem State.enter_chOut : (s.enter q).chOut = s.chOut := rfl
@[simp] theorem State.enter_colOut : (s.enter q).colOut = s.colOut := rfl
@[simp] theorem State.enter_sin : (s.enter q).sin = s.sin := rfl
@[simp] theorem State.enter_inbox : (s.enter q).inbox = s.inbox := rfl
@[simp] theorem State.enter_epoch : (s.enter q).epoch = s.epoch := rfl
@[simp] theorem State.enter_params : (s.enter q).params = s.params := rfl

end

section
variable (s : State) (i : Nat) (n : BitVec 4)

@[simp] theorem State.atPixel_state : (s.atPixel i n).state = s.state := rfl
@[simp] theorem State.atPixel_op : (s.atPixel i n).op = s.op := rfl
@[simp] theorem State.atPixel_cmdRej : (s.atPixel i n).cmdRej = s.cmdRej := rfl
@[simp] theorem State.atPixel_errKind : (s.atPixel i n).errKind = s.errKind := rfl
@[simp] theorem State.atPixel_errCode : (s.atPixel i n).errCode = s.errCode := rfl
@[simp] theorem State.atPixel_errExp : (s.atPixel i n).errExp = s.errExp := rfl
@[simp] theorem State.atPixel_errFnd : (s.atPixel i n).errFnd = s.errFnd := rfl
@[simp] theorem State.atPixel_tWidth : (s.atPixel i n).tWidth = s.tWidth := rfl
@[simp] theorem State.atPixel_tHeight : (s.atPixel i n).tHeight = s.tHeight := rfl
@[simp] theorem State.atPixel_tFormat : (s.atPixel i n).tFormat = s.tFormat := rfl
@[simp] theorem State.atPixel_tPaylen : (s.atPixel i n).tPaylen = s.tPaylen := rfl
@[simp] theorem State.atPixel_spos : (s.atPixel i n).spos = s.spos := rfl
@[simp] theorem State.atPixel_dWidth : (s.atPixel i n).dWidth = s.dWidth := rfl
@[simp] theorem State.atPixel_dHeight : (s.atPixel i n).dHeight = s.dHeight := rfl
@[simp] theorem State.atPixel_dDatalen : (s.atPixel i n).dDatalen = s.dDatalen := rfl
@[simp] theorem State.atPixel_dRaslen : (s.atPixel i n).dRaslen = s.dRaslen := rfl
@[simp] theorem State.atPixel_dbuf : (s.atPixel i n).dbuf = s.dbuf := rfl
@[simp] theorem State.atPixel_pbuf : (s.atPixel i n).pbuf = s.pbuf := rfl
@[simp] theorem State.atPixel_rbuf : (s.atPixel i n).rbuf = s.rbuf := rfl
@[simp] theorem State.atPixel_phase : (s.atPixel i n).phase = s.phase := rfl
@[simp] theorem State.atPixel_bidx : (s.atPixel i n).bidx = i := rfl
@[simp] theorem State.atPixel_pix : (s.atPixel i n).pix = n := rfl
@[simp] theorem State.atPixel_magicBuf : (s.atPixel i n).magicBuf = s.magicBuf := rfl
@[simp] theorem State.atPixel_hdrBuf : (s.atPixel i n).hdrBuf = s.hdrBuf := rfl
@[simp] theorem State.atPixel_fmtSel : (s.atPixel i n).fmtSel = s.fmtSel := rfl
@[simp] theorem State.atPixel_argWidth : (s.atPixel i n).argWidth = s.argWidth := rfl
@[simp] theorem State.atPixel_argHeight : (s.atPixel i n).argHeight = s.argHeight := rfl
@[simp] theorem State.atPixel_argDatalen : (s.atPixel i n).argDatalen = s.argDatalen := rfl
@[simp] theorem State.atPixel_color0 : (s.atPixel i n).color0 = s.color0 := rfl
@[simp] theorem State.atPixel_color1 : (s.atPixel i n).color1 = s.color1 := rfl
@[simp] theorem State.atPixel_indices : (s.atPixel i n).indices = s.indices := rfl
@[simp] theorem State.atPixel_e0 : (s.atPixel i n).e0 = s.e0 := rfl
@[simp] theorem State.atPixel_e1 : (s.atPixel i n).e1 = s.e1 := rfl
@[simp] theorem State.atPixel_pal : (s.atPixel i n).pal = s.pal := rfl
@[simp] theorem State.atPixel_chOut : (s.atPixel i n).chOut = s.chOut := rfl
@[simp] theorem State.atPixel_colOut : (s.atPixel i n).colOut = s.colOut := rfl
@[simp] theorem State.atPixel_sin : (s.atPixel i n).sin = s.sin := rfl
@[simp] theorem State.atPixel_inbox : (s.atPixel i n).inbox = s.inbox := rfl
@[simp] theorem State.atPixel_epoch : (s.atPixel i n).epoch = s.epoch := rfl
@[simp] theorem State.atPixel_params : (s.atPixel i n).params = s.params := rfl

end

section
variable (s : State) (m : Memory)

@[simp] theorem State.withRaster_state : (s.withRaster m).state = s.state := rfl
@[simp] theorem State.withRaster_op : (s.withRaster m).op = s.op := rfl
@[simp] theorem State.withRaster_cmdRej : (s.withRaster m).cmdRej = s.cmdRej := rfl
@[simp] theorem State.withRaster_errKind : (s.withRaster m).errKind = s.errKind := rfl
@[simp] theorem State.withRaster_errCode : (s.withRaster m).errCode = s.errCode := rfl
@[simp] theorem State.withRaster_errExp : (s.withRaster m).errExp = s.errExp := rfl
@[simp] theorem State.withRaster_errFnd : (s.withRaster m).errFnd = s.errFnd := rfl
@[simp] theorem State.withRaster_tWidth : (s.withRaster m).tWidth = s.tWidth := rfl
@[simp] theorem State.withRaster_tHeight : (s.withRaster m).tHeight = s.tHeight := rfl
@[simp] theorem State.withRaster_tFormat : (s.withRaster m).tFormat = s.tFormat := rfl
@[simp] theorem State.withRaster_tPaylen : (s.withRaster m).tPaylen = s.tPaylen := rfl
@[simp] theorem State.withRaster_spos : (s.withRaster m).spos = s.spos := rfl
@[simp] theorem State.withRaster_dWidth : (s.withRaster m).dWidth = s.dWidth := rfl
@[simp] theorem State.withRaster_dHeight : (s.withRaster m).dHeight = s.dHeight := rfl
@[simp] theorem State.withRaster_dDatalen : (s.withRaster m).dDatalen = s.dDatalen := rfl
@[simp] theorem State.withRaster_dRaslen : (s.withRaster m).dRaslen = s.dRaslen := rfl
@[simp] theorem State.withRaster_dbuf : (s.withRaster m).dbuf = s.dbuf := rfl
@[simp] theorem State.withRaster_pbuf : (s.withRaster m).pbuf = s.pbuf := rfl
@[simp] theorem State.withRaster_rbuf : (s.withRaster m).rbuf = m := rfl
@[simp] theorem State.withRaster_phase : (s.withRaster m).phase = s.phase := rfl
@[simp] theorem State.withRaster_bidx : (s.withRaster m).bidx = s.bidx := rfl
@[simp] theorem State.withRaster_pix : (s.withRaster m).pix = s.pix := rfl
@[simp] theorem State.withRaster_magicBuf : (s.withRaster m).magicBuf = s.magicBuf := rfl
@[simp] theorem State.withRaster_hdrBuf : (s.withRaster m).hdrBuf = s.hdrBuf := rfl
@[simp] theorem State.withRaster_fmtSel : (s.withRaster m).fmtSel = s.fmtSel := rfl
@[simp] theorem State.withRaster_argWidth : (s.withRaster m).argWidth = s.argWidth := rfl
@[simp] theorem State.withRaster_argHeight : (s.withRaster m).argHeight = s.argHeight := rfl
@[simp] theorem State.withRaster_argDatalen : (s.withRaster m).argDatalen = s.argDatalen := rfl
@[simp] theorem State.withRaster_color0 : (s.withRaster m).color0 = s.color0 := rfl
@[simp] theorem State.withRaster_color1 : (s.withRaster m).color1 = s.color1 := rfl
@[simp] theorem State.withRaster_indices : (s.withRaster m).indices = s.indices := rfl
@[simp] theorem State.withRaster_e0 : (s.withRaster m).e0 = s.e0 := rfl
@[simp] theorem State.withRaster_e1 : (s.withRaster m).e1 = s.e1 := rfl
@[simp] theorem State.withRaster_pal : (s.withRaster m).pal = s.pal := rfl
@[simp] theorem State.withRaster_chOut : (s.withRaster m).chOut = s.chOut := rfl
@[simp] theorem State.withRaster_colOut : (s.withRaster m).colOut = s.colOut := rfl
@[simp] theorem State.withRaster_sin : (s.withRaster m).sin = s.sin := rfl
@[simp] theorem State.withRaster_inbox : (s.withRaster m).inbox = s.inbox := rfl
@[simp] theorem State.withRaster_epoch : (s.withRaster m).epoch = s.epoch := rfl
@[simp] theorem State.withRaster_params : (s.withRaster m).params = s.params := rfl

end

section
variable (s : State) (i : BitVec 2)

@[simp] theorem State.select_state : (s.select i).state = s.state := rfl
@[simp] theorem State.select_op : (s.select i).op = s.op := rfl
@[simp] theorem State.select_cmdRej : (s.select i).cmdRej = s.cmdRej := rfl
@[simp] theorem State.select_errKind : (s.select i).errKind = s.errKind := rfl
@[simp] theorem State.select_errCode : (s.select i).errCode = s.errCode := rfl
@[simp] theorem State.select_errExp : (s.select i).errExp = s.errExp := rfl
@[simp] theorem State.select_errFnd : (s.select i).errFnd = s.errFnd := rfl
@[simp] theorem State.select_tWidth : (s.select i).tWidth = s.tWidth := rfl
@[simp] theorem State.select_tHeight : (s.select i).tHeight = s.tHeight := rfl
@[simp] theorem State.select_tFormat : (s.select i).tFormat = s.tFormat := rfl
@[simp] theorem State.select_tPaylen : (s.select i).tPaylen = s.tPaylen := rfl
@[simp] theorem State.select_spos : (s.select i).spos = s.spos := rfl
@[simp] theorem State.select_dWidth : (s.select i).dWidth = s.dWidth := rfl
@[simp] theorem State.select_dHeight : (s.select i).dHeight = s.dHeight := rfl
@[simp] theorem State.select_dDatalen : (s.select i).dDatalen = s.dDatalen := rfl
@[simp] theorem State.select_dRaslen : (s.select i).dRaslen = s.dRaslen := rfl
@[simp] theorem State.select_dbuf : (s.select i).dbuf = s.dbuf := rfl
@[simp] theorem State.select_pbuf : (s.select i).pbuf = s.pbuf := rfl
@[simp] theorem State.select_rbuf : (s.select i).rbuf = s.rbuf := rfl
@[simp] theorem State.select_phase : (s.select i).phase = s.phase := rfl
@[simp] theorem State.select_bidx : (s.select i).bidx = s.bidx := rfl
@[simp] theorem State.select_pix : (s.select i).pix = s.pix := rfl
@[simp] theorem State.select_magicBuf : (s.select i).magicBuf = s.magicBuf := rfl
@[simp] theorem State.select_hdrBuf : (s.select i).hdrBuf = s.hdrBuf := rfl
@[simp] theorem State.select_fmtSel : (s.select i).fmtSel = s.fmtSel := rfl
@[simp] theorem State.select_argWidth : (s.select i).argWidth = s.argWidth := rfl
@[simp] theorem State.select_argHeight : (s.select i).argHeight = s.argHeight := rfl
@[simp] theorem State.select_argDatalen : (s.select i).argDatalen = s.argDatalen := rfl
@[simp] theorem State.select_color0 : (s.select i).color0 = s.color0 := rfl
@[simp] theorem State.select_color1 : (s.select i).color1 = s.color1 := rfl
@[simp] theorem State.select_indices : (s.select i).indices = s.indices := rfl
@[simp] theorem State.select_e0 : (s.select i).e0 = s.e0 := rfl
@[simp] theorem State.select_e1 : (s.select i).e1 = s.e1 := rfl
@[simp] theorem State.select_pal : (s.select i).pal = s.pal := rfl
@[simp] theorem State.select_chOut : (s.select i).chOut = s.chOut := rfl
@[simp] theorem State.select_colOut : (s.select i).colOut = paletteEntry s.pal i := rfl
@[simp] theorem State.select_sin : (s.select i).sin = s.sin := rfl
@[simp] theorem State.select_inbox : (s.select i).inbox = s.inbox := rfl
@[simp] theorem State.select_epoch : (s.select i).epoch = s.epoch := rfl
@[simp] theorem State.select_params : (s.select i).params = s.params := rfl

end

end Sys2Proof.Machine
end

