-- ==== Sys2Proof/Laws/Decode.lean ====
section
/-! SUPPORT. What `DECODE` can do when it answers a next state, said once (R172 to R189). -/

namespace Sys2Proof.Machine

/-- The two length checks and the block walk. -/
theorem decodeCheck_cases {s t : State} (h : decodeCheck s = .next t) :
    overCap s.params s.argDatalen = false ∧
    ((s.argDatalen % 8 ≠ 0 ∧ t = s.raise .badBlockLength 0 (s.argDatalen % 8)) ∨
     (s.argDatalen % 8 = 0 ∧ s.argDatalen < gridBytes s.argWidth s.argHeight ∧
       t = s.raise .blockUnderrun (gridBytes s.argWidth s.argHeight) s.argDatalen) ∨
     (s.argDatalen % 8 = 0 ∧ gridBytes s.argWidth s.argHeight ≤ s.argDatalen ∧
       overCap s.params (rasterBytes s.argWidth s.argHeight) = false ∧
       decodeBlocks (s.enter .pDblock) = .next t)) := by
  unfold decodeCheck blockBytes at h
  split at h
  · cases h
  rename_i h1
  refine ⟨Bool.not_eq_true _ ▸ h1, ?_⟩
  split at h
  · rename_i h2
    exact .inl ⟨h2, (Host.Outcome.next.inj h).symm⟩
  rename_i h2
  split at h
  · rename_i h3
    exact .inr (.inl ⟨not_not.mp h2, h3, (Host.Outcome.next.inj h).symm⟩)
  rename_i h3
  split at h
  · cases h
  rename_i h4
  exact .inr (.inr ⟨not_not.mp h2, Nat.not_lt.mp h3, Bool.not_eq_true _ ▸ h4, h⟩)

/-- A `DECODE` that is not refused is accepted and begins with its checks (R246, R247). -/
theorem execDecode_cases {s t : State} (h : execDecode s = .next t) :
    (s.state = .busy ∧ t = s.reject) ∨ (s.state ≠ .busy ∧ decodeCheck s.acceptDecode = .next t) := by
  unfold execDecode at h
  split at h
  · rename_i hb
    exact .inl ⟨hb, (Host.Outcome.next.inj h).symm⟩
  · rename_i hb
    exact .inr ⟨hb, h⟩

/-- The block walk always completes, and leaves alone all but the raster, the registers of the datapath, the error
registers and the end of the command. -/
theorem decodeBlocks_spec (s : State) :
    ∃ t, decodeBlocks s = .next t ∧ t.rbuf = s.writeBlocks s.blocksLeft s.rbuf ∧ t.state = .doneOk ∧
      t.phase = .pDone ∧ t.dRaslen = rasterBytes s.argWidth s.argHeight ∧
      t = { s with
        rbuf := t.rbuf, state := t.state, phase := t.phase, dRaslen := t.dRaslen, errKind := .none, errCode := 0
        errExp := 0, errFnd := 0, bidx := t.bidx, pix := t.pix, color0 := t.color0, color1 := t.color1
        indices := t.indices, e0 := t.e0, e1 := t.e1, pal := t.pal, colOut := t.colOut } := by
  refine ⟨_, rfl, ?_, rfl, rfl, ?_, ?_⟩
  · simp
  · simp [State.afterWalk, State.fetchBlock]
  · simp only [State.completeDecode, State.withRaster, State.afterWalk, State.atPixel, State.select, State.fetchBlock,
      State.loadBlock]

end Sys2Proof.Machine
end

