-- ==== Sys2Proof/Laws/Encoding.lean ====
section
/-! SUPPORT. Bit fields put together and taken apart, said once, for the encoder and the decoder. -/

namespace Sys2Proof

/-- Two fields side by side, as a number. -/
theorem append_toNat {n m : Nat} (a : BitVec n) (b : BitVec m) : (a ++ b).toNat = a.toNat * 2 ^ m + b.toNat := by
  rw [BitVec.toNat_append, ← Nat.shiftLeft_add_eq_or_of_lt b.isLt, Nat.shiftLeft_eq]

/-- A field taken out, as a number. -/
theorem extract_toNat {n : Nat} (x : BitVec n) (lo len : Nat) :
    (x.extractLsb' lo len).toNat = x.toNat / 2 ^ lo % 2 ^ len := by
  rw [BitVec.extractLsb'_toNat, Nat.shiftRight_eq_div_pow]

/-- The low field of two. -/
theorem extract_append_low {n m : Nat} (a : BitVec n) (b : BitVec m) : (a ++ b).extractLsb' 0 m = b := by
  rw [← BitVec.toNat_inj, extract_toNat, append_toNat, Nat.pow_zero, Nat.div_one, Nat.mul_comm, Nat.mul_add_mod,
    Nat.mod_eq_of_lt b.isLt]

/-- The high field of two. -/
theorem extract_append_high {n m : Nat} (a : BitVec n) (b : BitVec m) : (a ++ b).extractLsb' m n = a := by
  rw [← BitVec.toNat_inj, extract_toNat, append_toNat, Nat.mul_comm, Nat.mul_add_div (Nat.two_pow_pos m),
    Nat.div_eq_of_lt b.isLt, Nat.add_zero, Nat.mod_eq_of_lt a.isLt]

/-- A word that fits its format decodes by that format's own decoder. -/
theorem decodeWord_of_lt {p : Params} {f : Format} {w : Nat} (h : w < 2 ^ f.width) :
    decodeWord p f w = .instr (match f with
      | .cmd => decodeCmd (BitVec.ofNat 32 w)
      | .ch5 => .cx5 (BitVec.ofNat 5 w)
      | .ch6 => .cx6 (BitVec.ofNat 6 w)
      | .c565 => decodeC565 (BitVec.ofNat 16 w)
      | .bc1blk => decodeBlk (BitVec.ofNat 64 w)
      | .idx2 => decodeIdx (BitVec.ofNat 2 w)
      | .pfkey => decodeKey p (BitVec.ofNat 64 w)) := by
  unfold decodeWord
  rw [if_pos h]
  cases f <;> rfl

/-- A word that does not fit is rejected by name. -/
theorem decodeWord_of_le {p : Params} {f : Format} {w : Nat} (h : 2 ^ f.width ≤ w) :
    decodeWord p f w = .rejected (.tooWide f) := by
  unfold decodeWord
  rw [if_neg (Nat.not_lt.mpr h)]

end Sys2Proof
end

