-- ==== Sys2Proof/Laws/Memory.lean ====
section
/-! SUPPORT. The laws of the byte buffers: read after write, the canonical form, and that a canonical buffer is determined
by what it reads as. -/

namespace Sys2Proof.Machine

@[simp] theorem Memory.read_nil (a : Nat) : Memory.read [] a = none := rfl

theorem Memory.read_cons (c : Nat) (y : Byte) (m : Memory) (a : Nat) :
    Memory.read ((c, y) :: m) a = if c = a then some y else Memory.read m a := rfl

/-- Every address a buffer lists is above `n`. -/
def Memory.Above (m : Memory) (n : Nat) : Prop := ∀ x ∈ m, n < x.1

theorem Memory.wf_cons (a : Nat) (x : Byte) (m : Memory) :
    Memory.wf ((a, x) :: m) = true ↔ Memory.Above m a ∧ Memory.wf m = true := by
  induction m generalizing a x with
  | nil => simp [Memory.wf, Memory.Above]
  | cons h m ih =>
    obtain ⟨b, y⟩ := h
    have hb := ih b y
    simp only [Memory.wf, Bool.and_eq_true, decide_eq_true_eq]
    constructor
    · rintro ⟨hab, hm⟩
      refine ⟨?_, hm⟩
      intro z hz
      rcases List.mem_cons.mp hz with rfl | hz
      · exact hab
      · exact Nat.lt_trans hab ((hb.mp hm).1 z hz)
    · rintro ⟨hab, hm⟩
      exact ⟨hab (b, y) (by simp), hm⟩

theorem Memory.read_none_of_above {m : Memory} {n a : Nat} (h : Memory.Above m n) (ha : a ≤ n) :
    Memory.read m a = none := by
  induction m with
  | nil => rfl
  | cons p m ih =>
    obtain ⟨c, y⟩ := p
    have hc : n < c := h (c, y) (by simp)
    have hm : Memory.Above m n := fun x hx => h x (by simp [hx])
    rw [Memory.read_cons, if_neg (by omega), ih hm]

/-- Read after write, at the address written and at every other. -/
theorem Memory.read_write (m : Memory) (a : Nat) (b : Byte) (k : Nat) (h : m.wf = true) :
    (m.write a b).read k = if a = k then some b else m.read k := by
  induction m with
  | nil => simp [Memory.write, Memory.read_cons]
  | cons p m ih =>
    obtain ⟨c, y⟩ := p
    obtain ⟨hc, hm⟩ := (Memory.wf_cons c y m).mp h
    unfold Memory.write
    split
    · simp [Memory.read_cons]
    · split
      · subst c
        simp only [Memory.read_cons]
        split <;> rfl
      · simp only [Memory.read_cons, ih hm]
        split
        · rw [if_neg (by omega)]
        · rfl

theorem Memory.above_write {m : Memory} {n a : Nat} {b : Byte} (h : Memory.Above m n) (ha : n < a) :
    Memory.Above (m.write a b) n := by
  induction m with
  | nil => intro x hx; simp [Memory.write] at hx; simp [hx, ha]
  | cons p m ih =>
    obtain ⟨c, y⟩ := p
    have hc : n < c := h (c, y) (by simp)
    have hm : Memory.Above m n := fun x hx => h x (by simp [hx])
    intro x hx
    unfold Memory.write at hx
    split at hx
    · rcases List.mem_cons.mp hx with rfl | hx
      · exact ha
      · exact h x hx
    · split at hx
      · rcases List.mem_cons.mp hx with rfl | hx
        · exact ha
        · exact hm x hx
      · rcases List.mem_cons.mp hx with rfl | hx
        · exact hc
        · exact ih hm x hx

/-- A write keeps the canonical form. -/
theorem Memory.wf_write {m : Memory} (a : Nat) (b : Byte) (h : m.wf = true) : (m.write a b).wf = true := by
  induction m with
  | nil => rfl
  | cons p m ih =>
    obtain ⟨c, y⟩ := p
    obtain ⟨hc, hm⟩ := (Memory.wf_cons c y m).mp h
    unfold Memory.write
    split
    · rename_i hlt
      refine (Memory.wf_cons _ _ _).mpr ⟨?_, h⟩
      intro x hx
      rcases List.mem_cons.mp hx with rfl | hx
      · exact hlt
      · exact Nat.lt_trans hlt (hc x hx)
    · split
      · subst a
        exact (Memory.wf_cons _ _ _).mpr ⟨hc, hm⟩
      · exact (Memory.wf_cons _ _ _).mpr ⟨Memory.above_write hc (by omega), ih hm⟩

@[simp] theorem Memory.writeList_nil (m : Memory) (a : Nat) : m.writeList a [] = m := rfl

theorem Memory.writeList_cons (m : Memory) (a : Nat) (b : Byte) (bs : List Byte) :
    m.writeList a (b :: bs) = (m.write a b).writeList (a + 1) bs := rfl

/-- Writing a list of bytes keeps the canonical form. -/
theorem Memory.wf_writeList {m : Memory} (a : Nat) (bs : List Byte) (h : m.wf = true) :
    (m.writeList a bs).wf = true := by
  induction bs generalizing m a with
  | nil => exact h
  | cons b bs ih => exact ih (a + 1) (Memory.wf_write a b h)

/-- What a list of bytes written from `a` reads as: the bytes there, everything else as before. -/
theorem Memory.read_writeList {m : Memory} (a : Nat) (bs : List Byte) (k : Nat) (h : m.wf = true) :
    (m.writeList a bs).read k = if a ≤ k ∧ k < a + bs.length then bs[k - a]? else m.read k := by
  induction bs generalizing m a with
  | nil =>
    rw [if_neg (by simp)]
    rfl
  | cons b bs ih =>
    rw [Memory.writeList_cons, ih (a + 1) (Memory.wf_write a b h), Memory.read_write m a b k h]
    simp only [List.length_cons]
    by_cases hk : a = k
    · subst hk
      rw [if_neg (by omega), if_pos rfl, if_pos (by omega)]
      simp
    · by_cases hin : a + 1 ≤ k ∧ k < a + 1 + bs.length
      · rw [if_pos hin, if_pos (by omega)]
        obtain ⟨d, rfl⟩ : ∃ d, k = a + 1 + d := ⟨k - (a + 1), by omega⟩
        have h1 : a + 1 + d - (a + 1) = d := by omega
        have h2 : a + 1 + d - a = d + 1 := by omega
        rw [h1, h2]
        rfl
      · rw [if_neg hin, if_neg hk, if_neg (by omega)]

/-- Writing a list of bytes in two parts. -/
theorem Memory.writeList_append (m : Memory) (a : Nat) (x y : List Byte) :
    m.writeList a (x ++ y) = (m.writeList a x).writeList (a + x.length) y := by
  induction x generalizing m a with
  | nil => rfl
  | cons b x ih =>
    rw [List.cons_append, Memory.writeList_cons, ih, Memory.writeList_cons, List.length_cons]
    congr 1
    omega

/-- Two canonical buffers that read alike are equal data. -/
theorem Memory.ext_read {m k : Memory} (hm : m.wf = true) (hk : k.wf = true)
    (h : ∀ a, m.read a = k.read a) : m = k := by
  induction m generalizing k with
  | nil =>
    cases k with
    | nil => rfl
    | cons q k =>
      obtain ⟨d, z⟩ := q
      have := h d
      simp [Memory.read_cons] at this
  | cons p m ih =>
    obtain ⟨c, y⟩ := p
    cases k with
    | nil =>
      have := h c
      simp [Memory.read_cons] at this
    | cons q k =>
      obtain ⟨d, z⟩ := q
      obtain ⟨hc, hm'⟩ := (Memory.wf_cons c y m).mp hm
      obtain ⟨hd, hk'⟩ := (Memory.wf_cons d z k).mp hk
      have hcd : c = d := by
        rcases Nat.lt_trichotomy c d with hlt | heq | hgt
        · have := h c
          rw [Memory.read_cons, if_pos rfl, Memory.read_cons, if_neg (by omega),
            Memory.read_none_of_above hd (by omega)] at this
          simp at this
        · exact heq
        · have := h d
          rw [Memory.read_cons, if_neg (by omega), Memory.read_none_of_above hc (by omega),
            Memory.read_cons, if_pos rfl] at this
          simp at this
      subst hcd
      have hyz : y = z := by
        have := h c
        simpa [Memory.read_cons] using this
      subst hyz
      congr 1
      refine ih hm' hk' ?_
      intro a
      by_cases ha : c = a
      · subst ha
        rw [Memory.read_none_of_above hc (Nat.le_refl _), Memory.read_none_of_above hd (Nat.le_refl _)]
      · have := h a
        simpa [Memory.read_cons, ha] using this

end Sys2Proof.Machine
end

