-- ==== Sys2Proof/Laws/Stream.lean ====
section
/-! SUPPORT. What a run of stream pulls can come to (R14), said once for each of the two runs. -/

namespace Sys2Proof.Machine

@[simp] theorem itemsOf_nil : itemsOf [] = [] := rfl

@[simp] theorem itemsOf_cons (b : Byte) (S : List Byte) : itemsOf (b :: S) = .byte b :: itemsOf S := rfl

@[simp] theorem itemsOf_append (S T : List Byte) : itemsOf (S ++ T) = itemsOf S ++ itemsOf T := by
  simp [itemsOf]

@[simp] theorem itemsOf_length (S : List Byte) : (itemsOf S).length = S.length := by simp [itemsOf]

@[simp] theorem streamRead_zero (items : List StreamItem) : streamRead 0 items = .complete [] items := by
  cases items <;> rfl

/-- `StreamRead(n)` answers in one of three ways, each with what it says of the items it was given. -/
theorem streamRead_cases (n : Nat) (items : List StreamItem) :
    (∃ got rest, streamRead n items = .complete got rest ∧ got.length = n ∧ items = itemsOf got ++ rest) ∨
    (∃ got rest e, streamRead n items = .short got rest ∧ got.length < n ∧ (e = .endOfStream ∨ e = .fail) ∧
      items = itemsOf got ++ e :: rest) ∨
    (∃ got, streamRead n items = .waiting got ∧ got.length < n ∧ items = itemsOf got) := by
  induction items generalizing n with
  | nil =>
    cases n with
    | zero => exact .inl ⟨[], [], rfl, rfl, rfl⟩
    | succ n => exact .inr (.inr ⟨[], rfl, by simp, rfl⟩)
  | cons i items ih =>
    cases n with
    | zero => exact .inl ⟨[], i :: items, rfl, rfl, rfl⟩
    | succ n =>
      cases i with
      | byte b =>
        have hstep : streamRead (n + 1) (.byte b :: items) = (streamRead n items).cons b := rfl
        rcases ih n with ⟨g, r, h, hl, hi⟩ | ⟨g, r, e, h, hl, he, hi⟩ | ⟨g, h, hl, hi⟩
        · exact .inl ⟨b :: g, r, by rw [hstep, h]; rfl, by simp [hl], by simp [hi]⟩
        · exact .inr (.inl ⟨b :: g, r, e, by rw [hstep, h]; rfl, by simp [hl], he, by simp [hi]⟩)
        · exact .inr (.inr ⟨b :: g, by rw [hstep, h]; rfl, by simp [hl], by simp [hi]⟩)
      | endOfStream => exact .inr (.inl ⟨[], items, .endOfStream, rfl, by simp, .inl rfl, rfl⟩)
      | fail => exact .inr (.inl ⟨[], items, .fail, rfl, by simp, .inr rfl, rfl⟩)

/-- `StreamRest()` answers in one of three ways. -/
theorem streamRest_cases (items : List StreamItem) :
    (∃ got rest, streamRest items = .complete got rest ∧ items = itemsOf got ++ .endOfStream :: rest) ∨
    (∃ got rest, streamRest items = .short got rest ∧ items = itemsOf got ++ .fail :: rest) ∨
    (∃ got, streamRest items = .waiting got ∧ items = itemsOf got) := by
  induction items with
  | nil => exact .inr (.inr ⟨[], rfl, rfl⟩)
  | cons i items ih =>
    cases i with
    | byte b =>
      have hstep : streamRest (.byte b :: items) = (streamRest items).cons b := rfl
      rcases ih with ⟨g, r, h, hi⟩ | ⟨g, r, h, hi⟩ | ⟨g, h, hi⟩
      · exact .inl ⟨b :: g, r, by rw [hstep, h]; rfl, by simp [hi]⟩
      · exact .inr (.inl ⟨b :: g, r, by rw [hstep, h]; rfl, by simp [hi]⟩)
      · exact .inr (.inr ⟨b :: g, by rw [hstep, h]; rfl, by simp [hi]⟩)
    | endOfStream => exact .inl ⟨[], items, rfl, rfl⟩
    | fail => exact .inr (.inl ⟨[], items, rfl, rfl⟩)

/-- `StreamRead(n)` of a stream that delivers at least `n` bytes first. -/
theorem streamRead_of_le {n : Nat} {S : List Byte} (rest : List StreamItem) (h : n ≤ S.length) :
    streamRead n (itemsOf S ++ rest) = .complete (S.take n) (itemsOf (S.drop n) ++ rest) := by
  induction S generalizing n with
  | nil =>
    have : n = 0 := by simpa using h
    subst this
    simp
  | cons b S ih =>
    cases n with
    | zero => simp
    | succ n =>
      have hstep : streamRead (n + 1) (itemsOf (b :: S) ++ rest) = (streamRead n (itemsOf S ++ rest)).cons b := rfl
      rw [hstep, ih (by simpa using h)]
      rfl

/-- `StreamRead(n)` of a stream that ends or breaks first. -/
theorem streamRead_of_gt {n : Nat} {S : List Byte} {e : StreamItem} (rest : List StreamItem)
    (he : e = .endOfStream ∨ e = .fail) (h : S.length < n) :
    streamRead n (itemsOf S ++ e :: rest) = .short S rest := by
  induction S generalizing n with
  | nil =>
    obtain ⟨m, rfl⟩ : ∃ m, n = m + 1 := ⟨n - 1, by simp at h; omega⟩
    rcases he with rfl | rfl <;> rfl
  | cons b S ih =>
    obtain ⟨m, rfl⟩ : ∃ m, n = m + 1 := ⟨n - 1, by simp at h; omega⟩
    have hstep : streamRead (m + 1) (itemsOf (b :: S) ++ e :: rest) = (streamRead m (itemsOf S ++ e :: rest)).cons b :=
      rfl
    rw [hstep, ih (by simpa using h)]
    rfl

/-- `StreamRead(n)` of a stream with no further answer ready. -/
theorem streamRead_of_none {n : Nat} {S : List Byte} (h : S.length < n) : streamRead n (itemsOf S) = .waiting S := by
  induction S generalizing n with
  | nil =>
    obtain ⟨m, rfl⟩ : ∃ m, n = m + 1 := ⟨n - 1, by simp at h; omega⟩
    rfl
  | cons b S ih =>
    obtain ⟨m, rfl⟩ : ∃ m, n = m + 1 := ⟨n - 1, by simp at h; omega⟩
    have hstep : streamRead (m + 1) (itemsOf (b :: S)) = (streamRead m (itemsOf S)).cons b := rfl
    rw [hstep, ih (by simpa using h)]
    rfl

/-- `StreamRest()` of a stream that ends. -/
theorem streamRest_ended (S : List Byte) (rest : List StreamItem) :
    streamRest (itemsOf S ++ .endOfStream :: rest) = .complete S rest := by
  induction S with
  | nil => rfl
  | cons b S ih =>
    have hstep : streamRest (itemsOf (b :: S) ++ .endOfStream :: rest) =
        (streamRest (itemsOf S ++ .endOfStream :: rest)).cons b := rfl
    rw [hstep, ih]
    rfl

/-- `StreamRest()` of a stream that breaks. -/
theorem streamRest_failed (S : List Byte) (rest : List StreamItem) :
    streamRest (itemsOf S ++ .fail :: rest) = .short S rest := by
  induction S with
  | nil => rfl
  | cons b S ih =>
    have hstep : streamRest (itemsOf (b :: S) ++ .fail :: rest) = (streamRest (itemsOf S ++ .fail :: rest)).cons b :=
      rfl
    rw [hstep, ih]
    rfl

/-- `StreamRest()` of a stream with no further answer ready. -/
theorem streamRest_waiting (S : List Byte) : streamRest (itemsOf S) = .waiting S := by
  induction S with
  | nil => rfl
  | cons b S ih =>
    have hstep : streamRest (itemsOf (b :: S)) = (streamRest (itemsOf S)).cons b := rfl
    rw [hstep, ih]
    rfl

/-- The bytes `got` were obtained before this run of pulls. -/
def Pulled.prepend (got : List Byte) : Pulled → Pulled
  | .complete g rest => .complete (got ++ g) rest
  | .short g rest => .short (got ++ g) rest
  | .waiting g => .waiting (got ++ g)

theorem Pulled.prepend_nil (p : Pulled) : p.prepend [] = p := by cases p <;> rfl

theorem Pulled.cons_prepend (b : Byte) (got : List Byte) (p : Pulled) :
    (p.prepend got).cons b = p.prepend (b :: got) := by cases p <;> rfl

/-- Pulling in two runs is pulling in one: the first run takes what is ready, the second what comes after it. -/
theorem streamRead_append {got : List Byte} {n : Nat} (later : List StreamItem) (h : got.length ≤ n) :
    streamRead n (itemsOf got ++ later) = (streamRead (n - got.length) later).prepend got := by
  induction got generalizing n with
  | nil => simp [Pulled.prepend_nil]
  | cons b got ih =>
    obtain ⟨m, rfl⟩ : ∃ m, n = m + 1 := ⟨n - 1, by simp at h; omega⟩
    have hstep : streamRead (m + 1) (itemsOf (b :: got) ++ later) = (streamRead m (itemsOf got ++ later)).cons b := rfl
    rw [hstep, ih (by simpa using h), Pulled.cons_prepend]
    simp

/-- The same of the pulls that go on to `End`. -/
theorem streamRest_append (got : List Byte) (later : List StreamItem) :
    streamRest (itemsOf got ++ later) = (streamRest later).prepend got := by
  induction got with
  | nil => simp [Pulled.prepend_nil]
  | cons b got ih =>
    have hstep : streamRest (itemsOf (b :: got) ++ later) = (streamRest (itemsOf got ++ later)).cons b := rfl
    rw [hstep, ih, Pulled.cons_prepend]

end Sys2Proof.Machine
end

