-- ==== Sys2Proof/Laws/Read.lean ====
section
/-! SUPPORT. What each phase of `READ` can do when it answers a next state, said once for each phase (R131 to R145). -/

namespace Sys2Proof.Machine

/-- The compressed payload (R144): it waits, breaks, or ends the command. -/
theorem readRest_cases {s t : State} (h : readRest s = .next t) :
    (∃ got, s.sin = itemsOf got ∧ overCap s.params (s.payloadGot + got.length) = false ∧
      t = s.storePayload got []) ∨
    (∃ got rest, s.sin = itemsOf got ++ .fail :: rest ∧
      overCap s.params (s.payloadGot + got.length) = false ∧
      t = (s.storePayload got rest).raise .sPayload 0 (s.payloadGot + got.length)) ∨
    (∃ got rest, s.sin = itemsOf got ++ .endOfStream :: rest ∧
      overCap s.params (s.payloadGot + got.length) = false ∧
      t = (s.storePayload got rest).completeRead (hWidth s.hdrBuf) (hHeight s.hdrBuf) .bc1
        (s.payloadGot + got.length)) := by
  unfold readRest at h
  rcases streamRest_cases s.sin with ⟨got, rest, hr, hi⟩ | ⟨got, rest, hr, hi⟩ | ⟨got, hr, hi⟩
  all_goals
    rw [hr] at h
    dsimp only at h
    split at h
    · cases h
    · rename_i hc
      have hc : overCap s.params (s.payloadGot + got.length) = false := Bool.not_eq_true _ ▸ hc
      have h := (Host.Outcome.next.inj h).symm
      first
        | exact .inl ⟨got, hi, hc, h⟩
        | exact .inr (.inl ⟨got, rest, hi, hc, h⟩)
        | exact .inr (.inr ⟨got, rest, hi, hc, h⟩)

/-- The uncompressed payload (R143): it waits, breaks, or ends the command. -/
theorem readExact_cases {fmt : TexFormat} {len : Nat} {s t : State} (h : readExact fmt len s = .next t) :
    overCap s.params len = false ∧
    ((∃ got, s.sin = itemsOf got ∧ got.length < len - s.payloadGot ∧ t = s.storePayload got []) ∨
     (∃ got rest e, s.sin = itemsOf got ++ e :: rest ∧ (e = .endOfStream ∨ e = .fail) ∧
       got.length < len - s.payloadGot ∧
       t = (s.storePayload got rest).raise .sPayload len (s.payloadGot + got.length)) ∨
     (∃ got rest, s.sin = itemsOf got ++ rest ∧ got.length = len - s.payloadGot ∧
       t = (s.storePayload got rest).completeRead (hWidth s.hdrBuf) (hHeight s.hdrBuf) fmt len)) := by
  unfold readExact at h
  split at h
  · cases h
  rename_i hc
  refine ⟨Bool.not_eq_true _ ▸ hc, ?_⟩
  rcases streamRead_cases (len - s.payloadGot) s.sin with
    ⟨got, rest, hr, hl, hi⟩ | ⟨got, rest, e, hr, hl, he, hi⟩ | ⟨got, hr, hl, hi⟩
  all_goals rw [hr] at h
  · exact .inr (.inr ⟨got, rest, hi, hl, (Host.Outcome.next.inj h).symm⟩)
  · exact .inr (.inl ⟨got, rest, e, hi, he, hl, (Host.Outcome.next.inj h).symm⟩)
  · exact .inl ⟨got, hi, hl, (Host.Outcome.next.inj h).symm⟩

theorem readPayload_bc1 (s : State) : readPayload .bc1 s = readRest s := rfl

theorem readPayload_uncompressed24 (s : State) : readPayload .uncompressed24 s =
    readExact .uncompressed24 (payloadLength (hWidth s.hdrBuf) (hHeight s.hdrBuf) .uncompressed24) s := rfl

theorem readPayload_uncompressed32 (s : State) : readPayload .uncompressed32 s =
    readExact .uncompressed32 (payloadLength (hWidth s.hdrBuf) (hHeight s.hdrBuf) .uncompressed32) s := rfl

/-- Step 6 (R140 to R142): an unsupported code, or the payload of the selected format. -/
theorem readFormat_cases {s t : State} (h : readFormat s = .next t) :
    (keyFormat s.params (hPfFlags s.hdrBuf) (hFourCc s.hdrBuf) = none ∧
      t = s.raiseUnsupported (hFourCc s.hdrBuf)) ∨
    ∃ fmt, keyFormat s.params (hPfFlags s.hdrBuf) (hFourCc s.hdrBuf) = some fmt ∧
      readPayload fmt ((s.selectFormat fmt).enter .pPayload) = .next t := by
  unfold readFormat at h
  cases hk : keyFormat s.params (hPfFlags s.hdrBuf) (hFourCc s.hdrBuf) with
  | none =>
    rw [hk] at h
    exact .inl ⟨rfl, (Host.Outcome.next.inj h).symm⟩
  | some fmt =>
    rw [hk] at h
    exact .inr ⟨fmt, rfl, h⟩

/-- Steps 3 and 4 (R134, R135): a wrong size, or on to the format. -/
theorem readCheck_cases {s t : State} (h : readCheck s = .next t) :
    ((hSize s.hdrBuf).toNat ≠ 124 ∧ t = s.raise .badHeaderSize 124 (hSize s.hdrBuf).toNat) ∨
    ((hSize s.hdrBuf).toNat = 124 ∧ (hPfSize s.hdrBuf).toNat ≠ 32 ∧
      t = s.raise .badPfSize 32 (hPfSize s.hdrBuf).toNat) ∨
    ((hSize s.hdrBuf).toNat = 124 ∧ (hPfSize s.hdrBuf).toNat = 32 ∧ readFormat s = .next t) := by
  unfold readCheck hdrSize pfSize at h
  split at h
  · rename_i h1
    exact .inl ⟨h1, (Host.Outcome.next.inj h).symm⟩
  · rename_i h1
    split at h
    · rename_i h2
      exact .inr (.inl ⟨not_not.mp h1, h2, (Host.Outcome.next.inj h).symm⟩)
    · rename_i h2
      exact .inr (.inr ⟨not_not.mp h1, not_not.mp h2, h⟩)

/-- Step 2 (R132): the header waits, breaks, or is whole and goes to its checks. -/
theorem readHeader_cases {s t : State} (h : readHeader s = .next t) :
    (∃ got, s.sin = itemsOf got ∧ got.length < 124 - s.hdrBuf.length ∧ t = s.storeHeader got []) ∨
    (∃ got rest e, s.sin = itemsOf got ++ e :: rest ∧ (e = .endOfStream ∨ e = .fail) ∧
      got.length < 124 - s.hdrBuf.length ∧
      t = (s.storeHeader got rest).raise .sHeader 124 (s.hdrBuf.length + got.length)) ∨
    (∃ got rest, s.sin = itemsOf got ++ rest ∧ got.length = 124 - s.hdrBuf.length ∧
      readCheck ((s.storeHeader got rest).enter .pCheck) = .next t) := by
  unfold readHeader hdrSize at h
  rcases streamRead_cases (124 - s.hdrBuf.length) s.sin with
    ⟨got, rest, hr, hl, hi⟩ | ⟨got, rest, e, hr, hl, he, hi⟩ | ⟨got, hr, hl, hi⟩
  all_goals rw [hr] at h
  · exact .inr (.inr ⟨got, rest, hi, hl, h⟩)
  · exact .inr (.inl ⟨got, rest, e, hi, he, hl, (Host.Outcome.next.inj h).symm⟩)
  · exact .inl ⟨got, hi, hl, (Host.Outcome.next.inj h).symm⟩

/-- Step 1 (R131): the magic number waits, breaks, differs, or is right and the header follows. -/
theorem readMagic_cases {s t : State} (h : readMagic s = .next t) :
    (∃ got, s.sin = itemsOf got ∧ got.length < 4 - s.magicBuf.length ∧ t = s.storeMagic got []) ∨
    (∃ got rest e, s.sin = itemsOf got ++ e :: rest ∧ (e = .endOfStream ∨ e = .fail) ∧
      got.length < 4 - s.magicBuf.length ∧
      t = (s.storeMagic got rest).raise .sMagic 4 (s.magicBuf.length + got.length)) ∨
    (∃ got rest, s.sin = itemsOf got ++ rest ∧ got.length = 4 - s.magicBuf.length ∧
      s.magicBuf ++ got ≠ magicBytes ∧
      t = (s.storeMagic got rest).raise .badMagic (le32At magicBytes 0).toNat (le32At (s.magicBuf ++ got) 0).toNat) ∨
    (∃ got rest, s.sin = itemsOf got ++ rest ∧ got.length = 4 - s.magicBuf.length ∧
      s.magicBuf ++ got = magicBytes ∧ readHeader ((s.storeMagic got rest).enter .pHeader) = .next t) := by
  have hm : magicBytes.length = 4 := rfl
  unfold readMagic at h
  rw [hm] at h
  rcases streamRead_cases (4 - s.magicBuf.length) s.sin with
    ⟨got, rest, hr, hl, hi⟩ | ⟨got, rest, e, hr, hl, he, hi⟩ | ⟨got, hr, hl, hi⟩
  all_goals rw [hr] at h
  · dsimp only at h
    unfold readMagicCheck at h
    rw [State.storeMagic_magicBuf] at h
    split at h
    · rename_i hne
      exact .inr (.inr (.inl ⟨got, rest, hi, hl, hne, (Host.Outcome.next.inj h).symm⟩))
    · rename_i heq
      exact .inr (.inr (.inr ⟨got, rest, hi, hl, not_not.mp heq, h⟩))
  · exact .inr (.inl ⟨got, rest, e, hi, he, hl, (Host.Outcome.next.inj h).symm⟩)
  · exact .inl ⟨got, hi, hl, (Host.Outcome.next.inj h).symm⟩

/-- A `READ` that is not refused is accepted and begins with the magic number (R246, R247). -/
theorem execRead_cases {s t : State} (h : execRead s = .next t) :
    (s.state = .busy ∧ t = s.reject) ∨ (s.state ≠ .busy ∧ readMagic s.acceptRead = .next t) := by
  unfold execRead at h
  split at h
  · rename_i hb
    exact .inl ⟨hb, (Host.Outcome.next.inj h).symm⟩
  · rename_i hb
    exact .inr ⟨hb, h⟩

end Sys2Proof.Machine
end

