-- ==== Sys2Proof/Laws/Ended.lean ====
section
/-! SUPPORT. What the phases of `READ` make of a stream that delivers bytes and then ends or breaks (R147, R149): the
outcome of each phase, computed. -/

namespace Sys2Proof.Machine

theorem StreamEnd.item_eq (e : StreamEnd) : e.item = .endOfStream ∨ e.item = .fail := by cases e <;> simp [StreamEnd.item]

/-- The uncompressed payload from its first byte. -/
theorem readExact_ended {s : State} {fmt : TexFormat} {len : Nat} {T : List Byte} {e : StreamEnd} {rest : List StreamItem}
    (hs : s.sin = itemsOf T ++ e.item :: rest) (hp : s.payloadGot = 0) :
    readExact fmt len s =
      if overCap s.params len then .refused (.overCapacity len)
      else if T.length < len then .next ((s.storePayload T rest).raise .sPayload len T.length)
      else .next ((s.storePayload (T.take len) (itemsOf (T.drop len) ++ e.item :: rest)).completeRead (hWidth s.hdrBuf)
        (hHeight s.hdrBuf) fmt len) := by
  unfold readExact
  split
  · rfl
  rw [hp, Nat.sub_zero, hs]
  by_cases h : T.length < len
  · rw [if_pos h, streamRead_of_gt rest (StreamEnd.item_eq e) h]
    simp
  · rw [if_neg h, streamRead_of_le _ (Nat.not_lt.mp h)]

/-- The compressed payload from its first byte. -/
theorem readRest_ended {s : State} {T : List Byte} {e : StreamEnd} {rest : List StreamItem}
    (hs : s.sin = itemsOf T ++ e.item :: rest) (hp : s.payloadGot = 0) :
    readRest s =
      if overCap s.params T.length then .refused (.overCapacity T.length)
      else if e = .failed then .next ((s.storePayload T rest).raise .sPayload 0 T.length)
      else .next ((s.storePayload T rest).completeRead (hWidth s.hdrBuf) (hHeight s.hdrBuf) .bc1 T.length) := by
  unfold readRest
  cases e
  · rw [hs, show StreamEnd.ended.item = .endOfStream from rfl, streamRest_ended]
    simp [hp]
  · rw [hs, show StreamEnd.failed.item = .fail from rfl, streamRest_failed]
    simp [hp]

/-- The accepted state with the magic number's four bytes obtained. -/
def State.withMagic (s : State) (S : List Byte) (e : StreamEnd) (rest : List StreamItem) : State :=
  s.acceptRead.storeMagic (S.take 4) (itemsOf (S.drop 4) ++ e.item :: rest)

/-- The accepted state with the first 128 bytes obtained. -/
def State.withHeader (s : State) (S : List Byte) (e : StreamEnd) (rest : List StreamItem) : State :=
  (((s.withMagic S e rest).enter .pHeader).storeHeader (headerOf S) (itemsOf (S.drop 128) ++ e.item :: rest)).enter .pCheck

/-- `READ` up to its checks of the header. -/
theorem execRead_ended {s : State} {S : List Byte} {e : StreamEnd} {rest : List StreamItem} (hb : s.state ≠ .busy)
    (hs : s.sin = itemsOf S ++ e.item :: rest) :
    execRead s =
      if S.length < 4 then .next ((s.acceptRead.storeMagic S rest).raise .sMagic 4 S.length)
      else if S.take 4 ≠ magicBytes then
        .next ((s.withMagic S e rest).raise .badMagic (le32At magicBytes 0).toNat (le32At S 0).toNat)
      else if S.length < 128 then
        .next ((((s.withMagic S e rest).enter .pHeader).storeHeader (S.drop 4) rest).raise .sHeader 124 (S.length - 4))
      else readCheck (s.withHeader S e rest) := by
  have hm : magicBytes.length = 4 := rfl
  unfold execRead readMagic
  rw [if_neg hb, hm]
  simp only [State.acceptRead_magicBuf, State.acceptRead_sin, hs, List.length_nil, Nat.sub_zero]
  by_cases h4 : S.length < 4
  · rw [if_pos h4, streamRead_of_gt rest (StreamEnd.item_eq e) h4]
    simp
  · rw [if_neg h4, streamRead_of_le _ (Nat.not_lt.mp h4)]
    simp only
    unfold readMagicCheck
    simp only [State.storeMagic_magicBuf, State.acceptRead_magicBuf, List.nil_append]
    by_cases hM : S.take 4 ≠ magicBytes
    · simp only [ne_eq, hM, not_false_eq_true, if_true]
      have h0 : le32At (S.take 4) 0 = le32At S 0 := by
        simp only [le32At, byteAt, List.getD_eq_getElem?_getD, List.getElem?_take]
        rfl
      rw [h0]
      rfl
    · have hM := not_not.mp hM
      have h1 : s.acceptRead.storeMagic magicBytes (itemsOf (S.drop 4) ++ e.item :: rest) = s.withMagic S e rest := by
        rw [State.withMagic, hM]
      simp only [ne_eq, hM, not_true_eq_false, if_false, h1]
      unfold readHeader hdrSize
      have h2 : (s.withMagic S e rest).hdrBuf = [] := rfl
      have h3 : (s.withMagic S e rest).sin = itemsOf (S.drop 4) ++ e.item :: rest := rfl
      simp only [State.enter_hdrBuf, State.enter_sin, h2, h3, List.length_nil, Nat.sub_zero]
      have hl : (S.drop 4).length = S.length - 4 := by simp
      by_cases hH : S.length < 128
      · rw [if_pos hH, streamRead_of_gt rest (StreamEnd.item_eq e) (by omega)]
        simp only [hl, Nat.zero_add]
      · rw [if_neg hH, streamRead_of_le _ (by omega)]
        simp only [List.drop_drop]
        rfl

theorem headerOf_length {S : List Byte} (h : ¬ S.length < 128) : (headerOf S).length = 124 := by
  simp [headerOf]
  omega

/-- What the checks of the header find in the machine. -/
theorem State.withHeader_fields {s : State} {S : List Byte} {e : StreamEnd} {rest : List StreamItem}
    (h : ¬ S.length < 128) :
    (s.withHeader S e rest).hdrBuf = headerOf S ∧ (s.withHeader S e rest).params = s.params ∧
    (s.withHeader S e rest).sin = itemsOf (S.drop 128) ++ e.item :: rest ∧ (s.withHeader S e rest).spos = 128 ∧
    (s.withHeader S e rest).payloadGot = 0 ∧ (s.withHeader S e rest).pbuf = [] ∧
    (s.withHeader S e rest).op = 1 ∧ (s.withHeader S e rest).cmdRej = false := by
  have hl := headerOf_length h
  have hp : (s.withHeader S e rest).spos = 128 := by
    simp [State.withHeader, State.withMagic, hl]
    omega
  refine ⟨?_, ?_, ?_, hp, ?_, ?_, ?_, ?_⟩
  · simp [State.withHeader, State.withMagic]
  · simp [State.withHeader, State.withMagic]
  · simp [State.withHeader, State.withMagic]
  · unfold State.payloadGot
    rw [hp]
    rfl
  · simp [State.withHeader, State.withMagic]
  · simp [State.withHeader, State.withMagic]
  · simp [State.withHeader, State.withMagic]

end Sys2Proof.Machine
end

