-- ==== Sys2Proof/Laws/Step.lean ====
section
/-! SUPPORT. What a step does for each event, and what a step can do at all, said once. -/

namespace Sys2Proof.Machine

theorem not_readRunning {s : State} (h : s.state ≠ .busy) : ¬ s.ReadRunning := fun hr => h hr.1

theorem not_decodeRunning {s : State} (h : s.state ≠ .busy) : ¬ s.DecodeRunning := fun hd => h hd.1

/-- Between commands the core rests. -/
theorem coreStep_of_not_busy {s : State} (h : s.state ≠ .busy) : coreStep s = .next s := by
  unfold coreStep
  rw [if_neg (not_readRunning h), if_neg (not_decodeRunning h)]

theorem coreStep_of_readRunning {s : State} (h : s.ReadRunning) : coreStep s = resumeRead s := by
  unfold coreStep
  rw [if_pos h]

theorem coreStep_of_decodeRunning {s : State} (h : s.DecodeRunning) : coreStep s = resumeDecode s := by
  unfold coreStep
  rw [if_neg, if_pos h]
  intro hr
  have h1 := hr.2
  rw [h.2] at h1
  exact absurd h1 (by decide)

theorem step_of_nil {s : State} (h : s.inbox = []) : step s = coreStep s := by
  unfold step fetch
  rw [h]

theorem step_of_cons {s : State} {e : Event} {es : List Event} (h : s.inbox = e :: es) :
    step s = match fetchEvent e { s with inbox := es } with
      | .run i t => exec i t
      | .other o => o := by
  have hf : fetch s = fetchEvent e { s with inbox := es } := by simp only [fetch, h]
  exact congrArg (fun f => match f with
    | .run i t => exec i t
    | .other o => o) hf

/-- Everything a step that answers a next state can have done: the core alone; or, with the head event taken away, the
core alone, an instruction, a write of an argument register, nothing, a byte of `DBUF`, an answer of the stream, a new
stream, or reset. -/
theorem step_cases {s t : State} (h : step s = .next t) :
    (s.inbox = [] ∧ coreStep s = .next t) ∨
    ∃ e es, s.inbox = e :: es ∧
      ((e = .idle ∧ coreStep { s with inbox := es } = .next t) ∨
       (∃ i, fetch s = .run i { s with inbox := es } ∧ exec i { s with inbox := es } = .next t) ∨
       (∃ v, e = .write (.dWidth v) ∧ t = ({ s with inbox := es } : State).writeDWidth v) ∨
       (∃ v, e = .write (.dHeight v) ∧ t = ({ s with inbox := es } : State).writeDHeight v) ∨
       (∃ v, e = .write (.dDatalen v) ∧ t = ({ s with inbox := es } : State).writeDDatalen v) ∨
       (((∃ r v, e = .write (.readOnly r v)) ∨ (∃ r, e = .readReg r) ∨ ∃ sp a, e = .readByte sp a) ∧
         t = { s with inbox := es }) ∨
       (∃ a b, e = .writeDbuf a b ∧ ¬ s.DecodeRunning ∧ overCap s.params (a + 1) = false ∧
         t = { s with inbox := es, dbuf := s.dbuf.write a b }) ∨
       (∃ i, e = .answer i ∧ t = { s with inbox := es, sin := s.sin ++ [i] }) ∨
       (∃ items, e = .attach items ∧ ¬ s.ReadRunning ∧ t = { s with inbox := es, sin := items }) ∨
       (e = .reset ∧ t = ({ s with inbox := es } : State).resetNow)) := by
  cases hin : s.inbox with
  | nil => exact .inl ⟨rfl, (step_of_nil hin).symm.trans h⟩
  | cons e es =>
    refine .inr ⟨e, es, rfl, ?_⟩
    have hstep := (step_of_cons hin).symm.trans h
    have hfetch : fetch s = fetchEvent e { s with inbox := es } := by unfold fetch; rw [hin]
    have hword : ∀ f w, fetchEvent e { s with inbox := es } = fetchWord f w { s with inbox := es } →
        ∃ i, fetch s = .run i { s with inbox := es } ∧ exec i { s with inbox := es } = .next t := by
      intro f w hw
      rw [hw] at hstep hfetch
      cases hd : decodeWord s.params f w with
      | instr i =>
        have hr : fetchWord f w { s with inbox := es } = .run i { s with inbox := es } := by
          unfold fetchWord
          simp only [hd]
        rw [hr] at hstep hfetch
        exact ⟨i, hfetch, hstep⟩
      | rejected r =>
        have hr : fetchWord f w { s with inbox := es } = .other (.refused (.undecodable r)) := by
          unfold fetchWord
          simp only [hd]
        rw [hr] at hstep
        cases hstep
    cases e with
    | idle => exact .inl ⟨rfl, hstep⟩
    | write rw' =>
      cases rw' with
      | cmd w => exact .inr (.inl (hword .cmd w.toNat rfl))
      | dWidth v => exact .inr (.inr (.inl ⟨v, rfl, (Host.Outcome.next.inj hstep).symm⟩))
      | dHeight v => exact .inr (.inr (.inr (.inl ⟨v, rfl, (Host.Outcome.next.inj hstep).symm⟩)))
      | dDatalen v => exact .inr (.inr (.inr (.inr (.inl ⟨v, rfl, (Host.Outcome.next.inj hstep).symm⟩))))
      | readOnly r v =>
        exact .inr (.inr (.inr (.inr (.inr (.inl ⟨.inl ⟨r, v, rfl⟩, (Host.Outcome.next.inj hstep).symm⟩)))))
    | writeDbuf a b =>
      refine .inr (.inr (.inr (.inr (.inr (.inr (.inl ⟨a, b, rfl, ?_⟩))))))
      have h' : writeDbufEvent a b { s with inbox := es } = .next t := hstep
      unfold writeDbufEvent at h'
      split at h'
      · cases h'
      · split at h'
        · cases h'
        · rename_i h1 h2
          exact ⟨h1, Bool.not_eq_true _ ▸ h2, (Host.Outcome.next.inj h').symm⟩
    | readReg r =>
      exact .inr (.inr (.inr (.inr (.inr (.inl ⟨.inr (.inl ⟨r, rfl⟩), (Host.Outcome.next.inj hstep).symm⟩)))))
    | readByte sp a =>
      exact .inr (.inr (.inr (.inr (.inr (.inl ⟨.inr (.inr ⟨sp, a, rfl⟩), (Host.Outcome.next.inj hstep).symm⟩)))))
    | answer i =>
      exact .inr (.inr (.inr (.inr (.inr (.inr (.inr (.inl ⟨i, rfl, (Host.Outcome.next.inj hstep).symm⟩)))))))
    | attach items =>
      refine .inr (.inr (.inr (.inr (.inr (.inr (.inr (.inr (.inl ⟨items, rfl, ?_⟩))))))))
      have h' : attachEvent items { s with inbox := es } = .next t := hstep
      unfold attachEvent at h'
      split at h'
      · cases h'
      · rename_i h1
        exact ⟨h1, (Host.Outcome.next.inj h').symm⟩
    | reset =>
      exact .inr (.inr (.inr (.inr (.inr (.inr (.inr (.inr (.inr ⟨rfl, (Host.Outcome.next.inj hstep).symm⟩))))))))
    | present f w => exact .inr (.inl (hword f w rfl))

end Sys2Proof.Machine
end

