-- ==== Sys2Proof/Laws/Outcome.lean ====
section
/-! SUPPORT. Everything a command, an instruction and the core by itself can do when they answer a next state: said once, so
that a statement about every instruction or every step is a short case analysis. -/

namespace Sys2Proof.Machine

/-! ### READ -/

/-- `s` with every field a running `READ` writes taken from `t`. -/
def State.readWrites (s t : State) : State :=
  { s with
    state := t.state, errKind := t.errKind, errCode := t.errCode, errExp := t.errExp, errFnd := t.errFnd
    tWidth := t.tWidth, tHeight := t.tHeight, tFormat := t.tFormat, tPaylen := t.tPaylen, spos := t.spos
    pbuf := t.pbuf, phase := t.phase, magicBuf := t.magicBuf, hdrBuf := t.hdrBuf, fmtSel := t.fmtSel, sin := t.sin }

/-- The Texture registers are as they were. -/
def State.SameTexture (s t : State) : Prop :=
  t.tWidth = s.tWidth ∧ t.tHeight = s.tHeight ∧ t.tFormat = s.tFormat ∧ t.tPaylen = s.tPaylen

/-- The error registers are as they were. -/
def State.SameErrors (s t : State) : Prop :=
  t.errKind = s.errKind ∧ t.errCode = s.errCode ∧ t.errExp = s.errExp ∧ t.errFnd = s.errFnd

/-- The error registers are zero. -/
def State.NoErrors (t : State) : Prop := t.errKind = .none ∧ t.errCode = 0 ∧ t.errExp = 0 ∧ t.errFnd = 0

theorem State.SameTexture.refl (s : State) : s.SameTexture s := ⟨rfl, rfl, rfl, rfl⟩

theorem State.SameErrors.refl (s : State) : s.SameErrors s := ⟨rfl, rfl, rfl, rfl⟩

theorem State.SameTexture.trans {s u t : State} (h : s.SameTexture u) (k : u.SameTexture t) : s.SameTexture t := by
  obtain ⟨h1, h2, h3, h4⟩ := h
  obtain ⟨k1, k2, k3, k4⟩ := k
  exact ⟨k1.trans h1, k2.trans h2, k3.trans h3, k4.trans h4⟩

theorem State.SameErrors.trans {s u t : State} (h : s.SameErrors u) (k : u.SameErrors t) : s.SameErrors t := by
  obtain ⟨h1, h2, h3, h4⟩ := h
  obtain ⟨k1, k2, k3, k4⟩ := k
  exact ⟨k1.trans h1, k2.trans h2, k3.trans h3, k4.trans h4⟩

/-- What a running `READ` can do from `s`: it writes its own fields, pulls from the front of the stream, and waits, fails
or succeeds. -/
structure ReadOutcome (s t : State) : Prop where
  frame : t = s.readWrites t
  wf : s.pbuf.wf = true → t.pbuf.wf = true
  pulls : ∃ pulled, s.sin = pulled ++ t.sin
  result :
    (t.state = s.state ∧ s.SameErrors t ∧ s.SameTexture t) ∨
    (t.state = .doneErr ∧ t.phase = .pDone ∧ t.pbuf = [] ∧ s.SameTexture t ∧ t.errExp < 2 ^ 66 ∧
      ∃ c ∈ [Cause.badMagic, .badHeaderSize, .badPfSize, .unsupportedFormat, .sMagic, .sHeader, .sPayload],
        t.errKind = c.kind ∧ t.errCode = c.code) ∨
    (t.state = .doneOk ∧ t.phase = .pDone ∧ t.NoErrors ∧ (t.tFormat ≠ .bc1 → t.tPaylen < 2 ^ 66))

theorem ReadOutcome.refl (s : State) : ReadOutcome s s :=
  ⟨rfl, fun h => h, ⟨[], rfl⟩, .inl ⟨rfl, .refl s, .refl s⟩⟩

theorem ReadOutcome.op {s t : State} (h : ReadOutcome s t) : t.op = s.op := by rw [h.frame]; rfl

theorem ReadOutcome.cmdRej {s t : State} (h : ReadOutcome s t) : t.cmdRej = s.cmdRej := by rw [h.frame]; rfl

/-- A part of a `READ` that neither fails nor ends, and then the rest of it. -/
theorem ReadOutcome.after {s u t : State} (hf : u = s.readWrites u) (hw : s.pbuf.wf = true → u.pbuf.wf = true)
    (hp : ∃ pulled, s.sin = pulled ++ u.sin) (hs : u.state = s.state) (he : s.SameErrors u) (ht : s.SameTexture u)
    (h : ReadOutcome u t) : ReadOutcome s t := by
  obtain ⟨f, w, ⟨p, hp2⟩, r⟩ := h
  obtain ⟨q, hq⟩ := hp
  refine ⟨?_, fun x => w (hw x), ⟨q ++ p, by rw [hq, hp2, List.append_assoc]⟩, ?_⟩
  · rw [f]
    show u.readWrites t = s.readWrites (u.readWrites t)
    rw [hf]
    rfl
  · rcases r with ⟨a, b, c⟩ | ⟨a, b, c, d, e⟩ | h
    · exact .inl ⟨a.trans hs, he.trans b, ht.trans c⟩
    · exact .inr (.inl ⟨a, b, c, ht.trans d, e⟩)
    · exact .inr (.inr h)

/-- A part of a `READ` that fails. -/
theorem ReadOutcome.failed {s u : State} {c : Cause} {x f : Nat} (hop : s.op = 1) (hf : u = s.readWrites u)
    (hp : ∃ pulled, s.sin = pulled ++ u.sin) (ht : s.SameTexture u)
    (hc : c ∈ [Cause.badMagic, .badHeaderSize, .badPfSize, .unsupportedFormat, .sMagic, .sHeader, .sPayload])
    (hx : x < 2 ^ 66) : ReadOutcome s (u.raise c x f) := by
  have hu : u.op = 1 := by rw [hf]; exact hop
  refine ⟨?_, fun _ => ?_, hp, .inr (.inl ⟨rfl, rfl, ?_, ht, hx, c, hc, rfl, rfl⟩)⟩
  · have e : u.raise c x f = u.readWrites (u.raise c x f) := by simp [State.readWrites, State.raise, hu]
    rw [e, hf]
    rfl
  · simp [hu]
    rfl
  · simp [hu]

/-- A product of two words and a pixel's bytes fits `LEN_W` bits (R221). -/
theorem payloadLength_lt (width height : Word) (fmt : TexFormat) : payloadLength width height fmt < 2 ^ 66 := by
  have h1 := width.isLt
  have h2 := height.isLt
  have h3 : width.toNat * height.toNat < 2 ^ 64 := by
    calc width.toNat * height.toNat ≤ width.toNat * 2 ^ 32 := Nat.mul_le_mul_left _ (by omega)
      _ < 2 ^ 32 * 2 ^ 32 := Nat.mul_lt_mul_of_pos_right h1 (by norm_num)
      _ = 2 ^ 64 := by norm_num
  unfold payloadLength
  cases fmt <;> simp only [bytesPerPixel] <;> omega

theorem readRest_outcome {s t : State} (hop : s.op = 1) (h : readRest s = .next t) : ReadOutcome s t := by
  rcases readRest_cases h with ⟨g, hi, _, rfl⟩ | ⟨g, r, hi, _, rfl⟩ | ⟨g, r, hi, _, rfl⟩
  · exact ⟨rfl, fun hw => Memory.wf_writeList _ _ hw, ⟨itemsOf g, by simp [hi]⟩,
      .inl ⟨rfl, ⟨rfl, rfl, rfl, rfl⟩, ⟨rfl, rfl, rfl, rfl⟩⟩⟩
  · exact .failed hop rfl ⟨itemsOf g ++ [.fail], by simp [hi]⟩ ⟨rfl, rfl, rfl, rfl⟩ (by simp) (by norm_num)
  · exact ⟨rfl, fun hw => Memory.wf_writeList _ _ hw, ⟨itemsOf g ++ [.endOfStream], by simp [hi]⟩,
      .inr (.inr ⟨rfl, rfl, ⟨rfl, rfl, rfl, rfl⟩, fun hne => absurd rfl hne⟩)⟩

theorem readExact_outcome {s t : State} {fmt : TexFormat} {len : Nat} (hop : s.op = 1) (hlen : len < 2 ^ 66)
    (h : readExact fmt len s = .next t) : ReadOutcome s t := by
  rcases (readExact_cases h).2 with ⟨g, hi, _, rfl⟩ | ⟨g, r, e, hi, _, _, rfl⟩ | ⟨g, r, hi, _, rfl⟩
  · exact ⟨rfl, fun hw => Memory.wf_writeList _ _ hw, ⟨itemsOf g, by simp [hi]⟩,
      .inl ⟨rfl, ⟨rfl, rfl, rfl, rfl⟩, ⟨rfl, rfl, rfl, rfl⟩⟩⟩
  · exact .failed hop rfl ⟨itemsOf g ++ [e], by simp [hi]⟩ ⟨rfl, rfl, rfl, rfl⟩ (by simp) hlen
  · exact ⟨rfl, fun hw => Memory.wf_writeList _ _ hw, ⟨itemsOf g, by simp [hi]⟩,
      .inr (.inr ⟨rfl, rfl, ⟨rfl, rfl, rfl, rfl⟩, fun _ => hlen⟩)⟩

theorem readFormat_outcome {s t : State} (hop : s.op = 1) (h : readFormat s = .next t) : ReadOutcome s t := by
  rcases readFormat_cases h with ⟨_, rfl⟩ | ⟨fmt, _, h⟩
  · exact .failed hop rfl ⟨[], rfl⟩ (.refl s) (by simp) (by have := s.params.fourccBc1.isLt; omega)
  · refine .after (u := (s.selectFormat fmt).enter .pPayload) rfl (fun x => x) ⟨[], rfl⟩ rfl ⟨rfl, rfl, rfl, rfl⟩
      ⟨rfl, rfl, rfl, rfl⟩ ?_
    cases fmt
    · rw [readPayload_uncompressed24] at h
      exact readExact_outcome (by exact hop) (payloadLength_lt _ _ _) h
    · rw [readPayload_uncompressed32] at h
      exact readExact_outcome (by exact hop) (payloadLength_lt _ _ _) h
    · exact readRest_outcome hop h

theorem readCheck_outcome {s t : State} (hop : s.op = 1) (h : readCheck s = .next t) : ReadOutcome s t := by
  rcases readCheck_cases h with ⟨_, rfl⟩ | ⟨_, _, rfl⟩ | ⟨_, _, h⟩
  · exact .failed (c := .badHeaderSize) (x := 124) hop rfl ⟨[], rfl⟩ (.refl s) (by simp) (by norm_num)
  · exact .failed (c := .badPfSize) (x := 32) hop rfl ⟨[], rfl⟩ (.refl s) (by simp) (by norm_num)
  · exact readFormat_outcome hop h

theorem readHeader_outcome {s t : State} (hop : s.op = 1) (h : readHeader s = .next t) : ReadOutcome s t := by
  rcases readHeader_cases h with ⟨g, hi, _, rfl⟩ | ⟨g, r, e, hi, _, _, rfl⟩ | ⟨g, r, hi, _, h⟩
  · exact ⟨rfl, fun hw => hw, ⟨itemsOf g, by simp [hi]⟩, .inl ⟨rfl, ⟨rfl, rfl, rfl, rfl⟩, ⟨rfl, rfl, rfl, rfl⟩⟩⟩
  · exact .failed (c := .sHeader) (x := 124) hop rfl ⟨itemsOf g ++ [e], by simp [hi]⟩ ⟨rfl, rfl, rfl, rfl⟩ (by simp)
      (by norm_num)
  · exact .after (u := (s.storeHeader g r).enter .pCheck) rfl (fun x => x) ⟨itemsOf g, by simp [hi]⟩ rfl
      ⟨rfl, rfl, rfl, rfl⟩ ⟨rfl, rfl, rfl, rfl⟩ (readCheck_outcome (by simpa using hop) h)

theorem readMagic_outcome {s t : State} (hop : s.op = 1) (h : readMagic s = .next t) : ReadOutcome s t := by
  rcases readMagic_cases h with
    ⟨g, hi, _, rfl⟩ | ⟨g, r, e, hi, _, _, rfl⟩ | ⟨g, r, hi, _, _, rfl⟩ | ⟨g, r, hi, _, _, h⟩
  · exact ⟨rfl, fun hw => hw, ⟨itemsOf g, by simp [hi]⟩, .inl ⟨rfl, ⟨rfl, rfl, rfl, rfl⟩, ⟨rfl, rfl, rfl, rfl⟩⟩⟩
  · exact .failed (c := .sMagic) (x := 4) hop rfl ⟨itemsOf g ++ [e], by simp [hi]⟩ ⟨rfl, rfl, rfl, rfl⟩ (by simp)
      (by norm_num)
  · exact .failed hop rfl ⟨itemsOf g, by simp [hi]⟩ ⟨rfl, rfl, rfl, rfl⟩ (by simp) (by decide)
  · exact .after (u := (s.storeMagic g r).enter .pHeader) rfl (fun x => x) ⟨itemsOf g, by simp [hi]⟩ rfl
      ⟨rfl, rfl, rfl, rfl⟩ ⟨rfl, rfl, rfl, rfl⟩ (readHeader_outcome (by simpa using hop) h)

/-- A running `READ` that goes on. -/
theorem resumeRead_outcome {s t : State} (hop : s.op = 1) (h : resumeRead s = .next t) : ReadOutcome s t := by
  unfold resumeRead at h
  split at h
  · exact readMagic_outcome hop h
  · exact readHeader_outcome hop h
  · exact readCheck_outcome hop h
  · exact readFormat_outcome hop h
  all_goals
    cases h
    exact .refl s

/-- `READ`: refused while a command runs, else what a running `READ` does from the accepted state. -/
theorem execRead_outcome {s t : State} (h : execRead s = .next t) :
    (s.state = .busy ∧ t = s.reject) ∨ (s.state ≠ .busy ∧ ReadOutcome s.acceptRead t) := by
  rcases execRead_cases h with h | ⟨hb, h⟩
  · exact .inl h
  · exact .inr ⟨hb, readMagic_outcome rfl h⟩

/-! ### DECODE -/

/-- `s` with every field a running `DECODE` writes taken from `t`. -/
def State.decodeWrites (s t : State) : State :=
  { s with
    state := t.state, errKind := t.errKind, errCode := t.errCode, errExp := t.errExp, errFnd := t.errFnd
    dRaslen := t.dRaslen, rbuf := t.rbuf, phase := t.phase, bidx := t.bidx, pix := t.pix, color0 := t.color0
    color1 := t.color1, indices := t.indices, e0 := t.e0, e1 := t.e1, pal := t.pal, colOut := t.colOut }

/-- What a running `DECODE` can do from `s`: it writes its own fields, and fails or succeeds. -/
structure DecodeOutcome (s t : State) : Prop where
  frame : t = s.decodeWrites t
  phase : t.phase = .pDone
  result :
    (t.state = .doneErr ∧ t.rbuf = [] ∧ t.dRaslen = s.dRaslen ∧ t.errExp < 2 ^ 66 ∧
      ∃ c ∈ [Cause.badBlockLength, .blockUnderrun], t.errKind = c.kind ∧ t.errCode = c.code) ∨
    (t.state = .doneOk ∧ t.NoErrors ∧ t.dRaslen = rasterBytes s.argWidth s.argHeight ∧
      t.rbuf = s.writeBlocks s.blocksLeft s.rbuf)

theorem DecodeOutcome.op {s t : State} (h : DecodeOutcome s t) : t.op = s.op := by rw [h.frame]; rfl

theorem DecodeOutcome.cmdRej {s t : State} (h : DecodeOutcome s t) : t.cmdRej = s.cmdRej := by rw [h.frame]; rfl

theorem DecodeOutcome.args {s t : State} (h : DecodeOutcome s t) :
    t.argWidth = s.argWidth ∧ t.argHeight = s.argHeight ∧ t.argDatalen = s.argDatalen := by
  rw [h.frame]
  exact ⟨rfl, rfl, rfl⟩

/-- The grid's bytes fit `LEN_W` bits (R174). -/
theorem gridBytes_lt (width height : Word) : gridBytes width height < 2 ^ 66 := by
  have h1 : gridCells width ≤ 2 ^ 30 := by have := width.isLt; simp only [gridCells, tile]; omega
  have h2 : gridCells height ≤ 2 ^ 30 := by have := height.isLt; simp only [gridCells, tile]; omega
  have h3 := Nat.mul_le_mul h1 h2
  unfold gridBytes gridBlocks blockBytes
  omega

/-- The raster's bytes fit `LEN_W` bits (R221). -/
theorem rasterBytes_lt (width height : Word) : rasterBytes width height < 2 ^ 66 :=
  payloadLength_lt width height .uncompressed24

theorem decodeBlocks_outcome {s t : State} (h : decodeBlocks s = .next t) : DecodeOutcome s t := by
  obtain ⟨u, hu, h1, h2, h3, h4, h5⟩ := decodeBlocks_spec s
  rw [hu] at h
  cases h
  refine ⟨?_, h3, .inr ⟨h2, ⟨?_, ?_, ?_, ?_⟩, h4, h1⟩⟩ <;> rw [h5]
  rfl

theorem DecodeOutcome.failed {s : State} {c : Cause} {x f : Nat} (hop : s.op = 2)
    (hc : c ∈ [Cause.badBlockLength, .blockUnderrun]) (hx : x < 2 ^ 66) : DecodeOutcome s (s.raise c x f) := by
  refine ⟨?_, rfl, .inl ⟨rfl, ?_, rfl, hx, c, hc, rfl, rfl⟩⟩
  · simp [State.decodeWrites, State.raise, hop]
  · simp [hop]

theorem decodeCheck_outcome {s t : State} (hop : s.op = 2) (h : decodeCheck s = .next t) : DecodeOutcome s t := by
  rcases (decodeCheck_cases h).2 with ⟨_, rfl⟩ | ⟨_, _, rfl⟩ | ⟨_, _, _, h⟩
  · exact .failed hop (by simp) (by norm_num)
  · exact .failed hop (by simp) (gridBytes_lt _ _)
  · obtain ⟨f, p, r⟩ := decodeBlocks_outcome h
    refine ⟨?_, p, r⟩
    rw [f]
    rfl

/-- `DECODE`: refused while a command runs, else what a running `DECODE` does from the accepted state. -/
theorem execDecode_outcome {s t : State} (h : execDecode s = .next t) :
    (s.state = .busy ∧ t = s.reject) ∨ (s.state ≠ .busy ∧ DecodeOutcome s.acceptDecode t) := by
  rcases execDecode_cases h with h | ⟨hb, h⟩
  · exact .inl h
  · exact .inr ⟨hb, decodeCheck_outcome rfl h⟩

/-- A running `DECODE` that goes on; in a phase that is not its own, nothing happens. -/
theorem resumeDecode_outcome {s t : State} (hop : s.op = 2) (h : resumeDecode s = .next t) :
    DecodeOutcome s t ∨ t = s := by
  unfold resumeDecode at h
  split at h
  · exact .inl (decodeCheck_outcome hop h)
  · exact .inl (decodeBlocks_outcome h)
  all_goals
    cases h
    exact .inr rfl

/-! ### Every instruction, and the core by itself -/

/-- Everything an instruction can do. -/
theorem exec_outcome {i : Instr} {s t : State} (h : exec i s = .next t) :
    (i = .read ∧ ((s.state = .busy ∧ t = s.reject) ∨ (s.state ≠ .busy ∧ ReadOutcome s.acceptRead t))) ∨
    (i = .decode ∧ ((s.state = .busy ∧ t = s.reject) ∨ (s.state ≠ .busy ∧ DecodeOutcome s.acceptDecode t))) ∨
    ((∃ flags fourCc, i = .fmtUnsup flags fourCc ∧ t = s.raiseUnsupported fourCc) ∧ s.ReadChecking) ∨
    (i ≠ .read ∧ i ≠ .decode ∧
      (t = s ∨ t = s.reject ∨ (∃ b, t = { s with chOut := b }) ∨ (∃ c, t = { s with colOut := c }) ∨
        (∃ fmt, t = s.selectFormat fmt) ∨ ∃ c0 c1 ix pal, t = s.loadBlock c0 c1 ix pal)) := by
  cases i
  case read => exact .inl ⟨rfl, execRead_outcome h⟩
  case decode => exact .inr (.inl ⟨rfl, execDecode_outcome h⟩)
  case fmtUnsup flags fourCc =>
    have h : Host.Outcome.next (if s.ReadChecking then s.raiseUnsupported fourCc else s) = Host.Outcome.next t := h
    cases h
    split
    · rename_i hr
      exact .inr (.inr (.inl ⟨⟨_, _, rfl, rfl⟩, hr⟩))
    · exact .inr (.inr (.inr ⟨nofun, nofun, .inl rfl⟩))
  all_goals
    cases h
    refine .inr (.inr (.inr ⟨nofun, nofun, ?_⟩))
  · exact .inl rfl
  · exact .inr (.inl rfl)
  · exact .inr (.inl rfl)
  · exact .inr (.inr (.inl ⟨_, rfl⟩))
  · exact .inr (.inr (.inl ⟨_, rfl⟩))
  · exact .inr (.inr (.inr (.inl ⟨_, rfl⟩)))
  · exact .inr (.inr (.inr (.inr (.inr ⟨_, _, _, _, rfl⟩))))
  · exact .inr (.inr (.inr (.inr (.inr ⟨_, _, _, _, rfl⟩))))
  · exact .inr (.inr (.inr (.inl ⟨_, rfl⟩)))
  · exact .inr (.inr (.inr (.inl ⟨_, rfl⟩)))
  · exact .inr (.inr (.inr (.inl ⟨_, rfl⟩)))
  · exact .inr (.inr (.inr (.inl ⟨_, rfl⟩)))
  · exact .inr (.inr (.inr (.inr (.inl ⟨_, rfl⟩))))
  · exact .inr (.inr (.inr (.inr (.inl ⟨_, rfl⟩))))
  · exact .inr (.inr (.inr (.inr (.inl ⟨_, rfl⟩))))

/-- Everything the core can do by itself. -/
theorem coreStep_outcome {s t : State} (h : coreStep s = .next t) :
    t = s ∨ (s.ReadRunning ∧ ReadOutcome s t) ∨ (s.DecodeRunning ∧ DecodeOutcome s t) := by
  by_cases h1 : s.ReadRunning
  · rw [coreStep_of_readRunning h1] at h
    exact .inr (.inl ⟨h1, resumeRead_outcome h1.2 h⟩)
  by_cases h2 : s.DecodeRunning
  · rw [coreStep_of_decodeRunning h2] at h
    rcases resumeDecode_outcome h2.2 h with h | h
    · exact .inr (.inr ⟨h2, h⟩)
    · exact .inl h
  · unfold coreStep at h
    rw [if_neg h1, if_neg h2] at h
    cases h
    exact .inl rfl

end Sys2Proof.Machine
end

