-- ==== Sys2Proof/Laws/PerInstr.lean ====
section
/-! SUPPORT. The per-instruction family: what holds of each constructor of Instr as syntax. -/

namespace Sys2Proof.Laws

/-- The word of an instruction fits the width of its format (R108). -/
def EncodeFits.Statement (i : Instr) : Prop := encode i < 2 ^ i.format.width

theorem EncodeFits.nop : EncodeFits.Statement .nop := by unfold EncodeFits.Statement; decide

theorem EncodeFits.read : EncodeFits.Statement .read := by unfold EncodeFits.Statement; decide

theorem EncodeFits.decode : EncodeFits.Statement .decode := by unfold EncodeFits.Statement; decide

theorem EncodeFits.cmdRsv3 : EncodeFits.Statement .cmdRsv3 := by unfold EncodeFits.Statement; decide

theorem EncodeFits.cmdRsvhi (op : BitVec 2) (zero : BitVec 30) : EncodeFits.Statement (.cmdRsvhi op zero) :=
  (zero ++ op).isLt

theorem EncodeFits.cx5 (v : BitVec 5) : EncodeFits.Statement (.cx5 v) := v.isLt

theorem EncodeFits.cx6 (v : BitVec 6) : EncodeFits.Statement (.cx6 v) := v.isLt

theorem EncodeFits.cx565 (r5 : BitVec 5) (g6 : BitVec 6) (b5 : BitVec 5) :
    EncodeFits.Statement (.cx565 r5 g6 b5) := (r5 ++ g6 ++ b5).isLt

theorem EncodeFits.blk4c (color0 color1 : Half) (indices : Word) :
    EncodeFits.Statement (.blk4c color0 color1 indices) := (indices ++ color1 ++ color0).isLt

theorem EncodeFits.blk3c (color0 color1 : Half) (indices : Word) :
    EncodeFits.Statement (.blk3c color0 color1 indices) := (indices ++ color1 ++ color0).isLt

theorem EncodeFits.sel0 : EncodeFits.Statement .sel0 := by unfold EncodeFits.Statement; decide

theorem EncodeFits.sel1 : EncodeFits.Statement .sel1 := by unfold EncodeFits.Statement; decide

theorem EncodeFits.sel2 : EncodeFits.Statement .sel2 := by unfold EncodeFits.Statement; decide

theorem EncodeFits.sel3 : EncodeFits.Statement .sel3 := by unfold EncodeFits.Statement; decide

theorem EncodeFits.fmtBc1 (flags fourCc : Word) : EncodeFits.Statement (.fmtBc1 flags fourCc) :=
  (fourCc ++ flags).isLt

theorem EncodeFits.fmtUnsup (flags fourCc : Word) : EncodeFits.Statement (.fmtUnsup flags fourCc) :=
  (fourCc ++ flags).isLt

theorem EncodeFits.fmtRgb32 (flags fourCc : Word) : EncodeFits.Statement (.fmtRgb32 flags fourCc) :=
  (fourCc ++ flags).isLt

theorem EncodeFits.fmtRgb24 (flags fourCc : Word) : EncodeFits.Statement (.fmtRgb24 flags fourCc) :=
  (fourCc ++ flags).isLt

end Sys2Proof.Laws
end

