-- ==== Sys2Proof/Laws/Progress.lean ====
section
/-! SUPPORT. Where a running `READ` comes to rest, and what a finished one leaves: each phase, entered where the sequencer
enters it, either waits in a place that `State.ReadProgress` describes, fails, or leaves a whole Texture. -/

namespace Sys2Proof.Machine

/-- Where a running `READ` comes to. -/
def State.ReadArrives (t : State) : Prop :=
  (t.state = .busy ∧ t.ReadProgress) ∨ t.state = .doneErr ∨
  (t.state = .doneOk ∧ t.pbuf.FilledTo t.tPaylen ∧
    (t.tFormat ≠ .bc1 → t.tPaylen = t.tWidth.toNat * t.tHeight.toNat * (3 + (formatTag t.tFormat).toNat)) ∧
    t.spos = 128 + t.tPaylen)

/-- What holds when `READ` is in its payload, whatever the format. -/
structure State.InPayload (s : State) : Prop where
  busy : s.state = .busy
  op : s.op = 1
  magic : s.magicBuf = magicBytes
  header : s.hdrBuf.length = 124
  spos : 128 ≤ s.spos
  wf : s.pbuf.wf = true
  filled : s.pbuf.FilledTo s.payloadGot
  size : (hSize s.hdrBuf).toNat = 124
  pfSize : (hPfSize s.hdrBuf).toNat = 32

theorem payloadGot_eq (s : State) : s.payloadGot = s.spos - 128 := rfl

theorem Memory.filledTo_zero (m : Memory) : m.FilledTo 0 := fun a h => absurd h (Nat.not_lt_zero a)

theorem State.InPayload.filledTo {s : State} (h : s.InPayload) (got : List Byte) (rest : List StreamItem) :
    (s.storePayload got rest).pbuf.FilledTo (s.payloadGot + got.length) := by
  intro a ha
  rw [State.storePayload_pbuf, Memory.read_writeList _ _ _ h.wf]
  split
  · rename_i hh
    rw [List.getElem?_eq_getElem (by omega)]
    rfl
  · exact h.filled a (by omega)

theorem readRest_arrives {s t : State} (h : s.InPayload) (hp : s.phase = .pPayload)
    (hk : keyFormat s.params (hPfFlags s.hdrBuf) (hFourCc s.hdrBuf) = some .bc1) (ht : readRest s = .next t) :
    t.ReadArrives := by
  have hs := h.spos
  rcases readRest_cases ht with ⟨g, _, hc, rfl⟩ | ⟨g, r, _, _, rfl⟩ | ⟨g, r, _, _, rfl⟩
  · have e : (s.storePayload g []).payloadGot = s.payloadGot + g.length := by simp [payloadGot_eq]; omega
    refine .inl ⟨h.busy, h.op, .inr (.inr ⟨hp, h.magic, h.header, ?_, ?_, h.size, h.pfSize, ?_⟩)⟩
    · simp; omega
    · rw [e]; exact h.filledTo g []
    · simp only [State.storePayload_hdrBuf, State.storePayload_params, hk, e, hc]
  · exact .inr (.inl rfl)
  · refine .inr (.inr ⟨rfl, h.filledTo g r, fun hne => absurd rfl hne, ?_⟩)
    simp [payloadGot_eq]; omega

theorem readExact_arrives {s t : State} {fmt : TexFormat} (h : s.InPayload) (hp : s.phase = .pPayload) (hne : fmt ≠ .bc1)
    (hk : keyFormat s.params (hPfFlags s.hdrBuf) (hFourCc s.hdrBuf) = some fmt)
    (hle : s.payloadGot ≤ payloadLength (hWidth s.hdrBuf) (hHeight s.hdrBuf) fmt)
    (ht : readExact fmt (payloadLength (hWidth s.hdrBuf) (hHeight s.hdrBuf) fmt) s = .next t) : t.ReadArrives := by
  have hs := h.spos
  have hlen : payloadLength (hWidth s.hdrBuf) (hHeight s.hdrBuf) fmt =
      (hWidth s.hdrBuf).toNat * (hHeight s.hdrBuf).toNat * (3 + (formatTag fmt).toNat) := by
    cases fmt
    · rfl
    · rfl
    · exact absurd rfl hne
  generalize hL : payloadLength (hWidth s.hdrBuf) (hHeight s.hdrBuf) fmt = len at *
  have hc := (readExact_cases ht).1
  rcases (readExact_cases ht).2 with ⟨g, _, hl, rfl⟩ | ⟨g, r, e, _, _, _, rfl⟩ | ⟨g, r, _, hl, rfl⟩
  · have e : (s.storePayload g []).payloadGot = s.payloadGot + g.length := by simp [payloadGot_eq]; omega
    refine .inl ⟨h.busy, h.op, .inr (.inr ⟨hp, h.magic, h.header, ?_, ?_, h.size, h.pfSize, ?_⟩)⟩
    · simp; omega
    · rw [e]; exact h.filledTo g []
    · simp only [State.storePayload_hdrBuf, State.storePayload_params, hk, e]
      cases fmt
      · simp only [hL]; exact ⟨by omega, hc⟩
      · simp only [hL]; exact ⟨by omega, hc⟩
      · exact absurd rfl hne
  · exact .inr (.inl rfl)
  · refine .inr (.inr ⟨rfl, ?_, fun _ => hlen, ?_⟩)
    · have e : s.payloadGot + g.length = len := by omega
      exact e ▸ h.filledTo g r
    · have e : s.spos + g.length = 128 + len := by rw [payloadGot_eq] at hl hle; omega
      simp [e]

theorem readFormat_arrives {s t : State} (h : s.InPayload)
    (hle : ∀ fmt, keyFormat s.params (hPfFlags s.hdrBuf) (hFourCc s.hdrBuf) = some fmt → fmt ≠ .bc1 →
      s.payloadGot ≤ payloadLength (hWidth s.hdrBuf) (hHeight s.hdrBuf) fmt)
    (ht : readFormat s = .next t) : t.ReadArrives := by
  rcases readFormat_cases ht with ⟨_, rfl⟩ | ⟨fmt, hk, ht⟩
  · exact .inr (.inl rfl)
  · have h' : ((s.selectFormat fmt).enter .pPayload).InPayload :=
      ⟨h.busy, h.op, h.magic, h.header, h.spos, h.wf, h.filled, h.size, h.pfSize⟩
    by_cases hne : fmt = .bc1
    · subst hne
      exact readRest_arrives h' rfl hk ht
    · refine readExact_arrives (fmt := fmt) h' rfl hne hk (hle fmt hk hne) ?_
      cases fmt
      · rw [readPayload_uncompressed24] at ht; exact ht
      · rw [readPayload_uncompressed32] at ht; exact ht
      · exact absurd rfl hne

theorem readCheck_arrives {s t : State} (hb : s.state = .busy) (hop : s.op = 1) (hm : s.magicBuf = magicBytes)
    (hl : s.hdrBuf.length = 124) (hs : s.spos = 128) (hw : s.pbuf.wf = true) (ht : readCheck s = .next t) :
    t.ReadArrives := by
  rcases readCheck_cases ht with ⟨_, rfl⟩ | ⟨_, _, rfl⟩ | ⟨h1, h2, ht⟩
  · exact .inr (.inl rfl)
  · exact .inr (.inl rfl)
  · have e : s.payloadGot = 0 := by rw [payloadGot_eq, hs]
    refine readFormat_arrives ⟨hb, hop, hm, hl, by omega, hw, ?_, h1, h2⟩ ?_ ht
    · rw [e]; exact Memory.filledTo_zero _
    · intro _ _ _; rw [e]; exact Nat.zero_le _

theorem readHeader_arrives {s t : State} (hb : s.state = .busy) (hop : s.op = 1) (hp : s.phase = .pHeader)
    (hm : s.magicBuf = magicBytes) (hl : s.hdrBuf.length < 124) (hs : s.spos = 4 + s.hdrBuf.length)
    (hw : s.pbuf.wf = true) (ht : readHeader s = .next t) : t.ReadArrives := by
  rcases readHeader_cases ht with ⟨g, _, hg, rfl⟩ | ⟨g, r, e, _, _, _, rfl⟩ | ⟨g, r, _, hg, ht⟩
  · refine .inl ⟨hb, hop, .inr (.inl ⟨hp, hm, ?_, ?_⟩)⟩ <;> simp <;> omega
  · exact .inr (.inl rfl)
  · refine readCheck_arrives (s := (s.storeHeader g r).enter .pCheck) hb hop hm ?_ ?_ hw ht <;> simp <;> omega

theorem readMagic_arrives {s t : State} (hb : s.state = .busy) (hop : s.op = 1) (hp : s.phase = .pMagic)
    (hl : s.magicBuf.length < 4) (hs : s.spos = s.magicBuf.length) (hh : s.hdrBuf = []) (hw : s.pbuf.wf = true)
    (ht : readMagic s = .next t) : t.ReadArrives := by
  rcases readMagic_cases ht with
    ⟨g, _, hg, rfl⟩ | ⟨g, r, e, _, _, _, rfl⟩ | ⟨g, r, _, hg, _, rfl⟩ | ⟨g, r, _, hg, hm, ht⟩
  · refine .inl ⟨hb, hop, .inl ⟨hp, ?_, ?_, hh⟩⟩ <;> simp <;> omega
  · exact .inr (.inl rfl)
  · exact .inr (.inl rfl)
  · refine readHeader_arrives (s := (s.storeMagic g r).enter .pHeader) hb hop rfl hm ?_ ?_ hw ht
    · simp [hh]
    · simp [hh]; omega

/-- A running `READ` that goes on from where it can rest. -/
theorem resumeRead_arrives {s t : State} (hb : s.state = .busy) (h : s.ReadProgress) (hw : s.pbuf.wf = true)
    (ht : resumeRead s = .next t) : t.ReadArrives := by
  obtain ⟨op, ⟨a, b, c, d⟩ | ⟨a, b, c, d⟩ | ⟨a, m, b, c, d, e, f, g⟩⟩ := h
  · unfold resumeRead at ht
    rw [a] at ht
    exact readMagic_arrives hb op a b c d hw ht
  · unfold resumeRead at ht
    rw [a] at ht
    exact readHeader_arrives hb op a b c d hw ht
  · unfold resumeRead at ht
    rw [a] at ht
    refine readFormat_arrives ⟨hb, op, m, b, c, hw, d, e, f⟩ ?_ ht
    intro fmt hk hne
    rw [hk] at g
    cases fmt
    · exact Nat.le_of_lt g.1
    · exact Nat.le_of_lt g.1
    · exact absurd rfl hne

/-- An accepted `READ`. -/
theorem acceptRead_arrives {s t : State} (ht : readMagic s.acceptRead = .next t) : t.ReadArrives :=
  readMagic_arrives rfl rfl rfl (by simp) rfl rfl rfl ht

end Sys2Proof.Machine
end

