-- ==== Sys2Proof/Laws/Raster.lean ====
section
/-! SUPPORT. What writing pixels, blocks and lists of blocks does to the raster (R180 to R186), said once for each. -/

namespace Sys2Proof.Machine

theorem gridCells_pos (d : Word) : 0 < gridCells d := by unfold gridCells; omega

/-- The grid covers the dimension (R173, R184). -/
theorem div_lt_gridCells {d : Word} {x : Nat} (h : x < d.toNat) : x / 4 < gridCells d := by
  simp only [gridCells, tile]; omega

/-- The block that pixel `(R, C)` lies in (R184). -/
def blockOf (width : Word) (R C : Nat) : Nat := R / 4 * gridCells width + C / 4

/-- The pixel's number within its block (R184). -/
def pixOf (R C : Nat) : Nat := 4 * (R % 4) + C % 4

theorem pixOf_lt (R C : Nat) : pixOf R C < 16 := by unfold pixOf; omega

theorem blockOf_lt {width height : Word} {R C : Nat} (hR : R < height.toNat) (hC : C < width.toNat) :
    blockOf width R C < gridBlocks width height := by
  have h1 := div_lt_gridCells hR
  have h2 := div_lt_gridCells hC
  unfold blockOf gridBlocks
  have h3 : (R / 4 + 1) * gridCells width ≤ gridCells height * gridCells width := Nat.mul_le_mul_right _ h1
  rw [Nat.add_mul, Nat.one_mul] at h3
  rw [Nat.mul_comm (gridCells width)]
  omega

theorem blockOf_row {width : Word} {R C : Nat} (hC : C < width.toNat) :
    pixelRow width (blockOf width R C) (pixOf R C) = R := by
  have h2 := div_lt_gridCells hC
  have h3 : (R / 4 * gridCells width + C / 4) / gridCells width = R / 4 := by
    rw [Nat.mul_comm, Nat.mul_add_div (gridCells_pos width), Nat.div_eq_of_lt h2]; omega
  simp only [pixelRow, blockOf, h3, tile, pixOf]
  omega

theorem blockOf_col {width : Word} {R C : Nat} (hC : C < width.toNat) :
    pixelCol width (blockOf width R C) (pixOf R C) = C := by
  have h2 := div_lt_gridCells hC
  have h3 : (R / 4 * gridCells width + C / 4) % gridCells width = C / 4 := by
    rw [Nat.mul_comm, Nat.mul_add_mod, Nat.mod_eq_of_lt h2]
  simp only [pixelCol, blockOf, h3, tile, pixOf]
  omega

/-- A pixel of a block stands at `(R, C)` only if the block and the number are those of `(R, C)` (R184). -/
theorem blockOf_unique {width : Word} {R C i n : Nat} (hn : n < 16) (hR : pixelRow width i n = R)
    (hC : pixelCol width i n = C) : i = blockOf width R C ∧ n = pixOf R C := by
  simp only [pixelRow, pixelCol, tile] at hR hC
  have hd := Nat.div_add_mod i (gridCells width)
  have h1 : R / 4 = i / gridCells width := by omega
  have h2 : C / 4 = i % gridCells width := by omega
  refine ⟨?_, by unfold pixOf; omega⟩
  unfold blockOf
  rw [h1, h2, Nat.mul_comm]
  exact hd.symm

/-- Two pixels of the raster share a byte address only if they are one pixel. -/
theorem pixelAddr_inj {width : Word} {R C R' C' j j' : Nat} (hC : C < width.toNat) (hC' : C' < width.toNat)
    (hj : j < 3) (hj' : j' < 3) (h : pixelAddr width R C + j = pixelAddr width R' C' + j') :
    R = R' ∧ C = C' ∧ j = j' := by
  simp only [pixelAddr, rasterBpp] at h
  have h1 : R * width.toNat + C = R' * width.toNat + C' := by omega
  have hR : R = R' := by
    have e1 : (R * width.toNat + C) / width.toNat = R := by
      rw [Nat.mul_comm, Nat.mul_add_div (by omega), Nat.div_eq_of_lt hC]; omega
    have e2 : (R' * width.toNat + C') / width.toNat = R' := by
      rw [Nat.mul_comm, Nat.mul_add_div (by omega), Nat.div_eq_of_lt hC']; omega
    rw [← e1, ← e2, h1]
  subst hR
  exact ⟨rfl, by omega, by omega⟩

/-- No byte of a pixel lies outside the raster (R183). -/
theorem pixelAddr_lt {width height : Word} {R C j : Nat} (hR : R < height.toNat) (hC : C < width.toNat) (hj : j < 3) :
    pixelAddr width R C + j < rasterBytes width height := by
  simp only [pixelAddr, rasterBytes, rasterBpp]
  have h : (R + 1) * width.toNat ≤ height.toNat * width.toNat := Nat.mul_le_mul_right _ hR
  rw [Nat.add_mul, Nat.one_mul, Nat.mul_comm height.toNat] at h
  omega

/-- Every byte of the raster is a byte of some pixel (R184). -/
theorem exists_pixelAddr {width height : Word} {a : Nat} (h : a < rasterBytes width height) :
    ∃ R C j, R < height.toNat ∧ C < width.toNat ∧ j < 3 ∧ a = pixelAddr width R C + j := by
  simp only [rasterBytes, rasterBpp] at h
  have hw : 0 < width.toNat := by
    rcases Nat.eq_zero_or_pos width.toNat with h0 | h0
    · simp [h0] at h
    · exact h0
  refine ⟨a / 3 / width.toNat, a / 3 % width.toNat, a % 3, ?_, Nat.mod_lt _ hw, by omega, ?_⟩
  · have h3 : a / 3 < width.toNat * height.toNat := by omega
    exact Nat.div_lt_of_lt_mul h3
  · simp only [pixelAddr, rasterBpp]
    have := Nat.div_add_mod (a / 3) width.toNat
    rw [Nat.mul_comm] at this
    rw [this]
    omega

/-- The byte of a colour by its place: red, green, blue (R62). -/
def channel (c : Color888) (j : Nat) : Byte := if j = 0 then c.r else if j = 1 then c.g else c.b

theorem colourBytes_get {c : Color888} {j : Nat} (hj : j < 3) : (colourBytes c)[j]? = some (channel c j) := by
  rcases j with _ | _ | _ | j
  · rfl
  · rfl
  · rfl
  · omega

theorem writePixel_wf {width height : Word} {pal : Palette} {ix : Word} {i : Nat} {m : Memory} {n : Nat}
    (h : m.wf = true) : (writePixel width height pal ix i m n).wf = true := by
  unfold writePixel
  split
  · exact Memory.wf_writeList _ _ h
  · exact h

/-- Writing pixel `n` of block `i` changes byte `j` of raster pixel `(R, C)` exactly if it is that pixel. -/
theorem writePixel_read {width height : Word} {pal : Palette} {ix : Word} {i : Nat} {m : Memory} {n R C j : Nat}
    (h : m.wf = true) (hn : n < 16) (hR : R < height.toNat) (hC : C < width.toNat) (hj : j < 3) :
    (writePixel width height pal ix i m n).read (pixelAddr width R C + j) =
      if i = blockOf width R C ∧ n = pixOf R C then some (channel (sel ix n pal) j)
      else m.read (pixelAddr width R C + j) := by
  unfold writePixel
  by_cases hin : pixelRow width i n < height.toNat ∧ pixelCol width i n < width.toNat
  · rw [if_pos hin, Memory.read_writeList _ _ _ h]
    by_cases hb : i = blockOf width R C ∧ n = pixOf R C
    · obtain ⟨rfl, rfl⟩ := hb
      have hlen : (colourBytes (sel ix (pixOf R C) pal)).length = 3 := rfl
      rw [blockOf_row hC, blockOf_col hC, hlen, if_pos ⟨Nat.le_add_right _ _, by omega⟩, if_pos ⟨rfl, rfl⟩,
        Nat.add_sub_cancel_left]
      exact colourBytes_get hj
    · rw [if_neg hb, if_neg]
      rintro ⟨h1, h2⟩
      simp only [colourBytes, List.length_cons, List.length_nil] at h2
      obtain ⟨d, hd⟩ := Nat.exists_eq_add_of_le h1
      obtain ⟨e1, e2, _⟩ := pixelAddr_inj hC hin.2 hj (by omega) hd
      exact hb (blockOf_unique hn e1.symm e2.symm)
  · rw [if_neg hin, if_neg]
    rintro ⟨rfl, rfl⟩
    exact hin ⟨by rw [blockOf_row hC]; exact hR, by rw [blockOf_col hC]; exact hC⟩

/-- Writing a pixel changes nothing outside the raster (R181, R183). -/
theorem writePixel_outside {width height : Word} {pal : Palette} {ix : Word} {i : Nat} {m : Memory} {n a : Nat}
    (h : m.wf = true) (ha : rasterBytes width height ≤ a) :
    (writePixel width height pal ix i m n).read a = m.read a := by
  unfold writePixel
  split
  · rename_i hin
    rw [Memory.read_writeList _ _ _ h, if_neg]
    rintro ⟨_, h2⟩
    simp only [colourBytes, List.length_cons, List.length_nil] at h2
    have := pixelAddr_lt (j := 2) hin.1 hin.2 (by omega)
    omega
  · rfl

/-- The pixels of a list of numbers, written one after another. -/
theorem writePixels_spec {width height : Word} {pal : Palette} {ix : Word} {i : Nat} (ns : List Nat)
    (hns : ∀ n ∈ ns, n < 16) (m : Memory) (h : m.wf = true) :
    (ns.foldl (writePixel width height pal ix i) m).wf = true ∧
    (∀ a, rasterBytes width height ≤ a → (ns.foldl (writePixel width height pal ix i) m).read a = m.read a) ∧
    ∀ R C j, R < height.toNat → C < width.toNat → j < 3 →
      (ns.foldl (writePixel width height pal ix i) m).read (pixelAddr width R C + j) =
        if i = blockOf width R C ∧ pixOf R C ∈ ns then some (channel (sel ix (pixOf R C) pal) j)
        else m.read (pixelAddr width R C + j) := by
  induction ns generalizing m with
  | nil => exact ⟨h, fun _ _ => rfl, fun R C j _ _ _ => by simp⟩
  | cons n ns ih =>
    have hn : n < 16 := hns n (by simp)
    obtain ⟨h1, h2, h3⟩ := ih (fun k hk => hns k (by simp [hk])) (writePixel width height pal ix i m n)
      (writePixel_wf h)
    refine ⟨h1, ?_, ?_⟩
    · intro a ha
      exact (h2 a ha).trans (writePixel_outside h ha)
    · intro R C j hR hC hj
      refine (h3 R C j hR hC hj).trans ?_
      rw [writePixel_read h hn hR hC hj]
      by_cases hi : i = blockOf width R C
      · by_cases hm : pixOf R C ∈ ns
        · simp [hi, hm]
        · by_cases he : n = pixOf R C
          · simp [hi, he]
          · have he' : ¬ pixOf R C = n := fun e => he e.symm
            simp [hi, hm, he, he']
      · simp [hi]

theorem pixelWithin_range {R C : Nat} : pixOf R C ∈ List.range 16 := List.mem_range.mpr (pixOf_lt R C)

theorem State.writeBlock_wf (s : State) {m : Memory} (i : Nat) (h : m.wf = true) : (s.writeBlock m i).wf = true :=
  (writePixels_spec _ (fun _ hn => List.mem_range.mp hn) m h).1

theorem State.writeBlock_outside (s : State) {m : Memory} (i : Nat) {a : Nat} (h : m.wf = true)
    (ha : rasterBytes s.argWidth s.argHeight ≤ a) : (s.writeBlock m i).read a = m.read a :=
  (writePixels_spec _ (fun _ hn => List.mem_range.mp hn) m h).2.1 a ha

/-- The colour of raster pixel `(R, C)` as the block walk gives it. -/
def State.rasterColour (s : State) (R C : Nat) : Color888 :=
  sel (s.blockIndices (blockOf s.argWidth R C)) (pixOf R C)
    (blockPalette s.params.blend (s.blockColor0 (blockOf s.argWidth R C)) (s.blockColor1 (blockOf s.argWidth R C)))

/-- Writing block `i` gives the pixels of that block their colours and leaves every other pixel alone (R184). -/
theorem State.writeBlock_read (s : State) {m : Memory} (i : Nat) {R C j : Nat} (h : m.wf = true)
    (hR : R < s.argHeight.toNat) (hC : C < s.argWidth.toNat) (hj : j < 3) :
    (s.writeBlock m i).read (pixelAddr s.argWidth R C + j) =
      if i = blockOf s.argWidth R C then some (channel (s.rasterColour R C) j)
      else m.read (pixelAddr s.argWidth R C + j) := by
  have := (writePixels_spec (pal := blockPalette s.params.blend (s.blockColor0 i) (s.blockColor1 i))
    (ix := s.blockIndices i) (i := i) _ (fun _ hn => List.mem_range.mp hn) m h).2.2 R C j hR hC hj
  refine this.trans ?_
  by_cases hi : i = blockOf s.argWidth R C
  · subst hi
    rw [if_pos ⟨rfl, pixelWithin_range⟩, if_pos rfl]
    rfl
  · rw [if_neg (fun hh => hi hh.1), if_neg hi]

/-- What a list of blocks, in any order, makes of the raster (R184, R186). -/
theorem State.writeBlocks_spec (s : State) (order : List Nat) (m : Memory) (h : m.wf = true) :
    (s.writeBlocks order m).wf = true ∧
    (∀ a, rasterBytes s.argWidth s.argHeight ≤ a → (s.writeBlocks order m).read a = m.read a) ∧
    ∀ R C j, R < s.argHeight.toNat → C < s.argWidth.toNat → j < 3 →
      (s.writeBlocks order m).read (pixelAddr s.argWidth R C + j) =
        if blockOf s.argWidth R C ∈ order then some (channel (s.rasterColour R C) j)
        else m.read (pixelAddr s.argWidth R C + j) := by
  induction order generalizing m with
  | nil => exact ⟨h, fun _ _ => rfl, fun R C j _ _ _ => by simp [State.writeBlocks]⟩
  | cons i order ih =>
    obtain ⟨h1, h2, h3⟩ := ih (s.writeBlock m i) (s.writeBlock_wf i h)
    have hstep : s.writeBlocks (i :: order) m = s.writeBlocks order (s.writeBlock m i) := rfl
    rw [hstep]
    refine ⟨h1, fun a ha => (h2 a ha).trans (s.writeBlock_outside i h ha), ?_⟩
    intro R C j hR hC hj
    rw [h3 R C j hR hC hj, s.writeBlock_read i h hR hC hj]
    by_cases hm : blockOf s.argWidth R C ∈ order
    · simp [hm]
    · by_cases hi : i = blockOf s.argWidth R C
      · simp [hi]
      · have hi' : ¬ blockOf s.argWidth R C = i := fun e => hi e.symm
        simp [hm, hi, hi']

end Sys2Proof.Machine
end

