-- ==== Sys2Proof/Tests/Slice0.lean ====
section
/-! SUPPORT. The model's own tests: ill-formed terms, words written out from the spec's encodings, vectors of
95_test_vectors.md (one step each), and for every statement with hypotheses a state and operands that meet them. -/

open Sys2Proof Sys2Proof.Machine

namespace Sys2Proof.Tests

set_option Elab.async false

/-! ### Helpers -/

/-- The same state with these answers of the stream ready. -/
def offered (s : State) (items : List StreamItem) : State := { s with sin := items }

/-- What the host reads in the registers `rs` after a next state. -/
def look (rs : List Reg) (o : Host.Outcome State Fault Refusal) : Option (List (Option Nat)) :=
  match o with
  | .next t => some (rs.map t.hostReg)
  | .fault _ => none
  | .refused _ => none

/-- The bytes `from ..` of a buffer, as the host reads them after a next state. -/
def lookBytes (sp : Space) (start n : Nat) (o : Host.Outcome State Fault Refusal) : Option (List (Option Byte)) :=
  match o with
  | .next t => some ((List.range' start n).map (t.hostByte sp))
  | .fault _ => none
  | .refused _ => none

/-- The state of a next outcome; the state given where there is none. -/
def after (d : State) (o : Host.Outcome State Fault Refusal) : State :=
  match o with
  | .next t => t
  | .fault _ => d
  | .refused _ => d

/-- The state an outcome goes to, if it is a next state. -/
def landed (o : Host.Outcome State Fault Refusal) : Option State :=
  match o with
  | .next t => some t
  | .fault _ => none
  | .refused _ => none

theorem next_of {o : Host.Outcome State Fault Refusal} {t : State} (h : landed o = some t) : o = .next t := by
  cases o with
  | next u => exact congrArg _ (Option.some.inj h)
  | fault _ => cases h
  | refused _ => cases h

theorem next_after {d : State} {o : Host.Outcome State Fault Refusal} (h : (landed o).isSome = true) :
    o = .next (after d o) := by
  cases o with
  | next u => rfl
  | fault _ => cases h
  | refused _ => cases h

/-- The error registers and `STATUS`. -/
def errs : List Reg := [.status, .errKind, .errCode, .errExp, .errFnd, .spos]

/-- The Texture and `STATUS`. -/
def texture : List Reg := [.status, .tWidth, .tHeight, .tFormat, .tPaylen, .spos]

/-- The reset state with these answers of the stream ready. -/
def ready (items : List StreamItem) : State := { State.reset with sin := items }

/-- Four bytes of a word, lowest first. -/
def leBytes (w : Word) : List Byte :=
  [w.extractLsb' 0 8, w.extractLsb' 8 8, w.extractLsb' 16 8, w.extractLsb' 24 8]

/-- `PFX(...)` of 95_test_vectors.md 2.5. -/
def pfx (size height width pfSz flags fourCc : Word) : List Byte :=
  [0x44, 0x44, 0x53, 0x20] ++ leBytes size ++ leBytes 0 ++ leBytes height ++ leBytes width ++ List.replicate 56 0 ++
    leBytes pfSz ++ leBytes flags ++ leBytes fourCc ++ List.replicate 40 0

/-- A stream of these bytes and `End`. -/
def ended (S : List Byte) : State := ready (itemsOf S ++ [.endOfStream])

/-- A stream of these bytes and `Fail`. -/
def failed (S : List Byte) : State := ready (itemsOf S ++ [.fail])

/-- The blocks `b0`, `b1`, `b2`, `b3` of 95_test_vectors.md 2.4. -/
def b0 : List Byte := [0x00, 0xF8, 0x1F, 0x00, 0xE4, 0xE4, 0xE4, 0xE4]
def b1 : List Byte := [0xE0, 0x07, 0xE0, 0x07, 0x00, 0xAA, 0xFF, 0x55]
def b2 : List Byte := [0x1F, 0x00, 0x00, 0xF8, 0xE4, 0x1B, 0x00, 0xFF]
def b3 : List Byte := [0x00, 0xF8, 0x1F, 0x00, 0x00, 0x55, 0xAA, 0xFF]

/-- `FILL DBUF`, `WR D_DATALEN`, `WR D_WIDTH`, `WR D_HEIGHT` from reset. -/
def loaded (w h : Word) (data : List Byte) : State :=
  { State.reset with dWidth := w, dHeight := h, dDatalen := data.length, dbuf := Memory.writeList [] 0 data }

/-- `some` of each byte. -/
def given (bs : List Byte) : Option (List (Option Byte)) := some (bs.map some)

/-- A `READ` that waits for its first answer. -/
def waiting : State := State.reset.acceptRead

/-- A `READ` that stands at the check of its key, the first 128 bytes obtained. -/
def checking : State := { waiting with phase := .pCheck, spos := 128 }

/-- A state with one event queued. -/
def withEvent (s : State) (e : Event) : State := { s with inbox := [e] }

/-! ### Ill-formed terms are refused -/

theorem test_wf_cmdRsvhi : (Instr.cmdRsvhi 1 0).wf Params.default = false := by decide
theorem test_wf_blk4c : (Instr.blk4c 7 7 0).wf Params.default = false := by decide
theorem test_wf_blk3c : (Instr.blk3c 8 7 0).wf Params.default = false := by decide
theorem test_wf_fmtBc1_flag : (Instr.fmtBc1 0 0x31545844).wf Params.default = false := by decide
theorem test_wf_fmtBc1_code : (Instr.fmtBc1 4 0x35545844).wf Params.default = false := by decide
theorem test_wf_fmtUnsup_flag : (Instr.fmtUnsup 0 0x35545844).wf Params.default = false := by decide
theorem test_wf_fmtUnsup_code : (Instr.fmtUnsup 4 0x31545844).wf Params.default = false := by decide
theorem test_wf_fmtRgb32_fourcc : (Instr.fmtRgb32 5 0).wf Params.default = false := by decide
theorem test_wf_fmtRgb32_alpha : (Instr.fmtRgb32 2 0).wf Params.default = false := by decide
theorem test_wf_fmtRgb24_fourcc : (Instr.fmtRgb24 4 0).wf Params.default = false := by decide
theorem test_wf_fmtRgb24_alpha : (Instr.fmtRgb24 1 0).wf Params.default = false := by decide

/-! ### Words written out from the spec's encodings -/

/-- R90. -/
theorem test_decode_nop : decodeWord Params.default .cmd 0b00000000000000000000000000000000 = .instr .nop := by decide
/-- R90. -/
theorem test_decode_read : decodeWord Params.default .cmd 0b00000000000000000000000000000001 = .instr .read := by decide
/-- R90. -/
theorem test_decode_decode :
    decodeWord Params.default .cmd 0b00000000000000000000000000000010 = .instr .decode := by decide
/-- R90. -/
theorem test_decode_cmdRsv3 :
    decodeWord Params.default .cmd 0b00000000000000000000000000000011 = .instr .cmdRsv3 := by decide
/-- R90: `op` is bits 1:0, `zero` is bits 31:2. -/
theorem test_decode_cmdRsvhi :
    decodeWord Params.default .cmd 0b10000000000000000000000100000010 =
      .instr (.cmdRsvhi 0b10 0b100000000000000000000001000000) := by decide
/-- R91, R210: a 5-bit channel. -/
theorem test_decode_cx5 : decodeWord Params.default .ch5 0b10010 = .instr (.cx5 18) := by decide
/-- R91, R211: a 6-bit channel. -/
theorem test_decode_cx6 : decodeWord Params.default .ch6 0b100101 = .instr (.cx6 37) := by decide
/-- R91: `rrrrrggggggbbbbb`. -/
theorem test_decode_cx565 :
    decodeWord Params.default .c565 0b0001001000110100 = .instr (.cx565 0b00010 0b010001 0b10100) := by decide
/-- R93: the eight bytes `00 F8 1F 00 E4 E3 E2 E1` as one little-endian number. -/
theorem test_decode_blk4c :
    decodeWord Params.default .bc1blk 0xE1E2E3E4001FF800 = .instr (.blk4c 0xF800 0x001F 0xE1E2E3E4) := by decide
/-- R93, R95: `1F 00 00 F8 E4 1B 00 FF`. -/
theorem test_decode_blk3c :
    decodeWord Params.default .bc1blk 0xFF001BE4F800001F = .instr (.blk3c 0x001F 0xF800 0xFF001BE4) := by decide
/-- R96. -/
theorem test_decode_sel :
    decodeWord Params.default .idx2 0b00 = .instr .sel0 ∧ decodeWord Params.default .idx2 0b01 = .instr .sel1 ∧
    decodeWord Params.default .idx2 0b10 = .instr .sel2 ∧ decodeWord Params.default .idx2 0b11 = .instr .sel3 := by
  decide
/-- R101, vector H24: flags `04 00 00 00`, code `44 58 54 31`. -/
theorem test_decode_fmtBc1 :
    decodeWord Params.default .pfkey 0x3154584400000004 = .instr (.fmtBc1 4 0x31545844) := by decide
/-- R101, vector H14: code `44 58 31 30`. -/
theorem test_decode_fmtUnsup :
    decodeWord Params.default .pfkey 0x3031584400000004 = .instr (.fmtUnsup 4 0x30315844) := by decide
/-- R101, R142: flags `0x41`. -/
theorem test_decode_fmtRgb32 :
    decodeWord Params.default .pfkey 0x0000000000000041 = .instr (.fmtRgb32 0x41 0) := by decide
/-- R101, R142: the `ALPHA` bit alone does not select 32 bits. -/
theorem test_decode_fmtRgb24 :
    decodeWord Params.default .pfkey 0x0000000000000002 = .instr (.fmtRgb24 0x02 0) := by decide
/-- A word wider than its format is rejected by name. -/
theorem test_decode_tooWide : decodeWord Params.default .ch5 32 = .rejected (.tooWide .ch5) := by decide

/-- The pipeline's view of the decoder, one word per format (log entry 9). -/
theorem test_decodeTableWord :
    decodeTableWord 32 2 = some .decode ∧ decodeTableWord 8 0b11 = some .sel3 ∧ decodeTableWord 8 0b10010 = some (.cx5 18) ∧
    decodeTableWord 8 0b100101 = some (.cx6 37) ∧ decodeTableWord 16 0x001F = some (.cx565 0 0 31) ∧
    decodeTableWord 64 0xE4E4E4E4001FF800 = some (.blk4c 0xF800 0x001F 0xE4E4E4E4) ∧
    decodeTableWord 64 0x0000000000000041 = some (.fmtRgb32 0x41 0) := by decide

/-- The word placed is the first instruction after reset. -/
theorem test_withFetchWord :
    look [.status, .errCode] (step (State.reset.withFetchWord 32 2)) = some [some 0x0B, some 6] ∧
    look [.status] (step (State.reset.withFetchWord 32 3)) = some [some 0x10] := by decide

/-! ### Commands: K vectors (95_test_vectors.md 2.6) -/

/-- K1, K5. -/
theorem test_nop :
    look errs (exec .nop State.reset) = some [some 0, some 0, some 0, some 0, some 0, some 0] ∧
    look errs (exec .nop (after State.reset (exec .decode (loaded 4 4 (b0.take 7))))) =
      some [some 0x0B, some 1, some 5, some 0, some 7, some 0] := by decide +kernel
/-- K2. -/
theorem test_cmdRsv3 : look [.status] (exec .cmdRsv3 State.reset) = some [some 0x10] := by decide
/-- K3. -/
theorem test_cmdRsvhi :
    look texture (exec (.cmdRsvhi 1 0x40) (after State.reset (exec .read (ended (pfx 124 2 2 32 0x40 0 ++ List.replicate 12 7))))) =
      some [some 0x16, some 2, some 2, some 0, some 12, some 140] := by decide +kernel
/-- K7: a second command while a `READ` runs. -/
theorem test_refused_while_busy : look [.status] (exec .decode waiting) = some [some 0x15] := by decide

/-! ### READ: H vectors (95_test_vectors.md 2.5) -/

/-- H1, H2, H4, H6, H9, H13, H18, H25, H29. -/
theorem test_read_fails :
    look errs (exec .read (ended [0x6E, 0x6F, 0x74, 0x20, 0x64, 0x64, 0x73])) =
      some [some 0x07, some 1, some 1, some 0x20534444, some 0x20746F6E, some 4] ∧
    look errs (exec .read (ended (pfx 10 2 2 32 0x40 0))) =
      some [some 0x07, some 1, some 2, some 124, some 10, some 128] ∧
    look errs (exec .read (ended (pfx 10 2 2 31 0x40 0))) =
      some [some 0x07, some 1, some 2, some 124, some 10, some 128] ∧
    look errs (exec .read (ended [])) = some [some 0x07, some 2, some 1, some 4, some 0, some 0] ∧
    look errs (exec .read (ended [0x44, 0x44, 0x53, 0x20, 0x0A, 0, 0, 0])) =
      some [some 0x07, some 2, some 2, some 124, some 4, some 8] ∧
    look errs (exec .read (ended (pfx 124 4 4 32 4 0x35545844))) =
      some [some 0x07, some 1, some 4, some 0x31545844, some 0x35545844, some 128] ∧
    look errs (exec .read (ended (pfx 124 2 2 32 0x40 0 ++ List.replicate 11 1))) =
      some [some 0x07, some 2, some 3, some 12, some 11, some 139] ∧
    look errs (exec .read (failed (pfx 124 4 4 32 4 0x31545844 ++ b0))) =
      some [some 0x07, some 2, some 3, some 0, some 8, some 136] ∧
    look errs (exec .read (ended (pfx 124 0xFFFFFFFF 0xFFFFFFFF 32 0x41 0))) =
      some [some 0x07, some 2, some 3, some 0x3FFFFFFF800000004, some 0, some 128] := by decide +kernel

/-- H16, H19 with its payload, H20, H23, H24 with its payload, H28. -/
theorem test_read_succeeds :
    look texture (exec .read (ended (pfx 124 2 2 32 0x40 0 ++ List.replicate 12 1))) =
      some [some 0x06, some 2, some 2, some 0, some 12, some 140] ∧
    lookBytes .pbuf 0 9 (exec .read (ended (pfx 124 1 2 32 0x41 0 ++ [0x10, 0x11, 0x12, 0x13, 0x14, 0x15, 0x16, 0x17]))) =
      some [some 0x10, some 0x11, some 0x12, some 0x13, some 0x14, some 0x15, some 0x16, some 0x17, none] ∧
    look texture (exec .read (ended (pfx 124 1 1 32 2 0 ++ [0x11, 0x22, 0x33]))) =
      some [some 0x06, some 1, some 1, some 0, some 3, some 131] ∧
    look texture (exec .read (failed (pfx 124 0 0 32 0x41 0))) =
      some [some 0x06, some 0, some 0, some 1, some 0, some 128] ∧
    lookBytes .pbuf 0 8 (exec .read (ended (pfx 124 4 4 32 4 0x31545844 ++ b0))) = given b0 ∧
    look texture (exec .read (ended (pfx 124 4 4 32 5 0x31545844 ++ b0))) =
      some [some 0x06, some 4, some 4, some 2, some 8, some 136] := by decide +kernel

/-! ### DECODE: B vectors (95_test_vectors.md 2.4) -/

/-- B8, B9, B11, B16. -/
theorem test_decode_fails :
    look errs (exec .decode (loaded 4 4 (b0.take 7))) = some [some 0x0B, some 1, some 5, some 0, some 7, some 0] ∧
    look errs (exec .decode (loaded 5 3 b0)) = some [some 0x0B, some 1, some 6, some 16, some 8, some 0] ∧
    look errs (exec .decode (loaded 0 0 [])) = some [some 0x0B, some 1, some 6, some 8, some 0, some 0] ∧
    look errs (exec .decode (loaded 8 4 (b0 ++ b1.take 4))) =
      some [some 0x0B, some 1, some 5, some 0, some 4, some 0] := by decide +kernel

/-- B6, the first two rows of B2, the transposition check, B12. -/
theorem test_decode_succeeds :
    lookBytes .rbuf 0 46 (exec .decode (loaded 5 3 (b0 ++ b1))) =
      some (([0xFF, 0, 0, 0, 0, 0xFF, 0xAA, 0, 0x55, 0x55, 0, 0xAA, 0, 0xFF, 0,
        0xFF, 0, 0, 0, 0, 0xFF, 0xAA, 0, 0x55, 0x55, 0, 0xAA, 0, 0xFF, 0,
        0xFF, 0, 0, 0, 0, 0xFF, 0xAA, 0, 0x55, 0x55, 0, 0xAA, 0, 0, 0] : List Byte).map some ++ [none]) ∧
    lookBytes .rbuf 0 24 (exec .decode (loaded 4 4 b2)) =
      given [0, 0, 0xFF, 0xFF, 0, 0, 0x7F, 0, 0x7F, 0, 0, 0, 0, 0, 0, 0x7F, 0, 0x7F, 0xFF, 0, 0, 0, 0, 0xFF] ∧
    lookBytes .rbuf 9 6 (exec .decode (loaded 4 4 b3)) = given [0xFF, 0, 0, 0, 0, 0xFF] ∧
    look [.status, .dRaslen] (exec .decode (loaded 0 0 b0)) = some [some 0x0A, some 0] := by decide +kernel

/-! ### Datapath rows: X, L, I vectors (95_test_vectors.md 2.1 to 2.3) -/

/-- X1, X2. -/
theorem test_cx5 : [0, 1, 15, 16, 31, 3, 7, 24, 28].map (fun v => (cx5 (BitVec.ofNat 5 v)).toNat) =
    [0, 8, 123, 132, 255, 25, 58, 197, 230] := by decide
/-- X3, X4. -/
theorem test_cx6 : [0, 1, 31, 32, 63, 11, 15, 48, 52].map (fun v => (cx6 (BitVec.ofNat 6 v)).toNat) =
    [0, 4, 125, 130, 255, 45, 61, 194, 210] := by decide
/-- X5 to X9, S1. -/
theorem test_cx565 :
    cx565 0xF800 = ⟨255, 0, 0⟩ ∧ cx565 0x07E0 = ⟨0, 255, 0⟩ ∧ cx565 0x001F = ⟨0, 0, 255⟩ ∧
    cx565 0x1234 = ⟨16, 69, 165⟩ ∧ cx565 0x18E3 = ⟨25, 28, 25⟩ ∧ cx565 0xFFFF = ⟨255, 255, 255⟩ := by decide
/-- L1, L8, L10 in both blend modes. -/
theorem test_blk4c :
    blockPalette .a 0xF800 0x001F = ⟨⟨255, 0, 0⟩, ⟨0, 0, 255⟩, ⟨170, 0, 85⟩, ⟨85, 0, 170⟩⟩ ∧
    blockPalette .a 0x8000 0x7FFF = ⟨⟨132, 0, 0⟩, ⟨123, 255, 255⟩, ⟨129, 85, 85⟩, ⟨126, 170, 170⟩⟩ ∧
    blockPalette .a 0x0841 0x0020 = ⟨⟨8, 8, 8⟩, ⟨0, 4, 0⟩, ⟨5, 6, 5⟩, ⟨2, 5, 2⟩⟩ ∧
    blockPalette .b 0x0841 0x0020 = ⟨⟨8, 8, 8⟩, ⟨0, 4, 0⟩, ⟨5, 6, 5⟩, ⟨2, 4, 2⟩⟩ := by decide
/-- L2, L3, L6. -/
theorem test_blk3c :
    blockPalette .a 0x001F 0xF800 = ⟨⟨0, 0, 255⟩, ⟨255, 0, 0⟩, ⟨127, 0, 127⟩, ⟨0, 0, 0⟩⟩ ∧
    blockPalette .a 0x1234 0x1234 = ⟨⟨16, 69, 165⟩, ⟨16, 69, 165⟩, ⟨16, 69, 165⟩, ⟨0, 0, 0⟩⟩ ∧
    blockPalette .a 0xFFFF 0xFFFF = ⟨⟨255, 255, 255⟩, ⟨255, 255, 255⟩, ⟨255, 255, 255⟩, ⟨0, 0, 0⟩⟩ := by decide
/-- I1 to I6. -/
theorem test_index_entries :
    [0, 1, 2, 3, 4, 7, 12, 15].map (indexEntry 0xE4E4E4E4) = [0, 1, 2, 3, 0, 3, 0, 3] ∧
    [4, 5, 6, 7, 8, 11, 12, 15].map (indexEntry 0xFF001BE4) = [3, 2, 1, 0, 0, 0, 3, 3] ∧
    [0, 1].map (indexEntry 0x00000003) = [3, 0] ∧ [15, 14].map (indexEntry 0xC0000000) = [3, 0] := by decide
/-- R177's example, through the row and then each `SEL`. -/
theorem test_sel :
    let s := after State.reset (exec (.blk4c 0xF800 0x001F 0) State.reset)
    (after s (exec .sel0 s)).colOut = ⟨255, 0, 0⟩ ∧ (after s (exec .sel1 s)).colOut = ⟨0, 0, 255⟩ ∧
    (after s (exec .sel2 s)).colOut = ⟨170, 0, 85⟩ ∧ (after s (exec .sel3 s)).colOut = ⟨85, 0, 170⟩ := by decide
/-- R141's example, as a row that ends a `READ` at the check of its key; a `READ` that waits is not ended by it (R255). -/
theorem test_fmtUnsup :
    look errs (exec (.fmtUnsup 4 0x35545844) checking) =
      some [some 0x07, some 1, some 4, some 0x31545844, some 0x35545844, some 128] ∧
    look [.status] (exec (.fmtUnsup 4 0x35545844) waiting) = some [some 0x05] := by decide
/-- R140, R142. -/
theorem test_fmt :
    (after State.reset (exec (.fmtBc1 4 0x31545844) State.reset)).fmtSel = .bc1 ∧
    (after State.reset (exec (.fmtRgb32 0x41 0) State.reset)).fmtSel = .uncompressed32 ∧
    (after State.reset (exec (.fmtRgb24 0x40 0) (ended []))).fmtSel = .uncompressed24 := by decide

/-! ### The buffers and reset -/

/-- The reset buffers have the canonical form, and a write keeps it in place and order. -/
theorem test_memory :
    State.reset.dbuf.wf = true ∧ (Memory.write (Memory.write (Memory.write [] 5 1) 2 7) 5 9) = [(2, 7), (5, 9)] ∧
    Memory.wf [(2, 7), (2, 9)] = false := by decide

/-! ### Witnesses: states and operands that meet the hypotheses of the statements -/

theorem witness_NopHasNoEffect : (withEvent waiting (.write (.cmd 0))).inbox = .write (.cmd 0) :: [] := rfl

/-- `READ` while `BUSY`; the two kinds of reserved word, at the lowest and the highest bit of `zero`. -/
theorem witness_RefusedCommandsSetCmdRejOnly :
    waiting.state = .busy ∧ (withEvent waiting (.write (.cmd 1))).inbox = .write (.cmd 1) :: [] ∧
    (withEvent State.reset (.write (.cmd 3))).inbox = .write (.cmd 3) :: [] ∧
    (4 : Word).extractLsb' 2 30 ≠ 0 ∧ (0x80000000 : Word).extractLsb' 2 30 ≠ 0 := by decide

theorem witness_ResetClearsEveryRegister : (withEvent waiting .reset).inbox = .reset :: [] := rfl

/-- Both ends of the range of `n`. -/
theorem witness_IndexSelectsPaletteEntry : (0 : Nat) < 16 ∧ (15 : Nat) < 16 := by decide

/-- At the check, and in each of the other situations: no command, and a `READ` that waits. -/
theorem witness_UnsupportedRowEndsTheRunningRead :
    (checking.ReadRunning ∧ checking.phase = .pCheck) ∧ ¬ (State.reset.ReadRunning ∧ State.reset.phase = .pCheck) ∧
    ¬ (waiting.ReadRunning ∧ waiting.phase = .pCheck) := by decide

/-- Every constructor with a condition, at the edge of it. -/
theorem witness_DecodeOfEncodeIsIdentity :
    (Instr.cmdRsvhi 0 1).wf Params.default = true ∧ (Instr.blk4c 1 0 0).wf Params.default = true ∧
    (Instr.blk3c 0 0 0).wf Params.default = true ∧ (Instr.fmtBc1 4 0x31545844).wf Params.default = true ∧
    (Instr.fmtUnsup 4 0).wf Params.default = true ∧ (Instr.fmtRgb32 1 0).wf Params.default = true ∧
    (Instr.fmtRgb24 0 0).wf Params.default = true := by decide

theorem witness_EncodeOfDecodeIsIdentity :
    decodeWord Params.default .cmd 4 = .instr (.cmdRsvhi 0 1) ∧ decodeWord Params.default .ch6 63 = .instr (.cx6 63) := by
  decide

/-- Both sides of the width. -/
theorem witness_EveryFittingWordDecodes : 31 < 2 ^ Format.ch5.width ∧ 2 ^ Format.ch5.width ≤ 32 := by decide

theorem witness_StepRunsTheDecodedWord :
    (withEvent State.reset (.write (.cmd 2))).inbox = .write (.cmd 2) :: [] ∧
    decodeWord Params.default .cmd (2 : Word).toNat = .instr .decode ∧
    (withEvent State.reset (.present .idx2 3)).inbox = .present .idx2 3 :: [] ∧
    decodeWord Params.default .idx2 3 = .instr .sel3 ∧
    waiting.inbox = [] ∧ (withEvent waiting .idle).inbox = .idle :: [] ∧ waiting.state = .busy ∧ waiting.op = 1 := by
  decide

theorem witness_CoreRestsBetweenCommands :
    State.reset.state ≠ .busy ∧ State.reset.inbox = [] ∧ (withEvent State.reset .idle).state ≠ .busy ∧
    (withEvent State.reset .idle).inbox = .idle :: [] := by decide

/-- Each write, outside `BUSY` and while `BUSY`, with the largest value. -/
theorem witness_HostRegisterWrites :
    (withEvent State.reset (.write (.dWidth 0xFFFFFFFF))).inbox = .write (.dWidth 0xFFFFFFFF) :: [] ∧
    (withEvent waiting (.write (.dHeight 1))).inbox = .write (.dHeight 1) :: [] ∧
    (withEvent State.reset (.write (.dDatalen (BitVec.allOnes 66)))).inbox =
      .write (.dDatalen (BitVec.allOnes 66)) :: [] ∧
    (withEvent waiting (.write (.readOnly .spos 1))).inbox = .write (.readOnly .spos 1) :: [] := by decide

theorem witness_HostReadsHaveNoEffect :
    (withEvent waiting (.readReg .spos)).inbox = .readReg .spos :: [] ∧
    (withEvent waiting (.readByte .rbuf 0)).inbox = .readByte .rbuf 0 :: [] := by decide

/-- A capacity of one byte. -/
def oneByte : Params := { Params.default with cap := some 1 }

/-- The last byte below the capacity, while a `READ` runs. -/
theorem witness_HostWritesOneByteOfDbuf :
    let s := { withEvent waiting (.writeDbuf 0 7) with params := oneByte }
    s.inbox = .writeDbuf 0 7 :: [] ∧ s.dbuf.wf = true ∧ ¬ (s.state = .busy ∧ s.op = 2) ∧ overCap s.params (0 + 1) = false := by
  decide

/-- Each of the three breaches; the second at the first byte beyond the capacity, between commands and while a `READ`
runs. -/
theorem witness_BrokenOwnershipStopsByName :
    (let s := withEvent State.reset.acceptDecode (.writeDbuf 0 7)
     s.inbox = .writeDbuf 0 7 :: [] ∧ s.state = .busy ∧ s.op = 2) ∧
    (let s := { withEvent State.reset (.writeDbuf 1 7) with params := oneByte }
     s.inbox = .writeDbuf 1 7 :: [] ∧ ¬ (s.state = .busy ∧ s.op = 2) ∧ s.params.cap = some 1 ∧ 1 ≤ 1) ∧
    (let s := { withEvent waiting (.writeDbuf 1 7) with params := oneByte }
     s.inbox = .writeDbuf 1 7 :: [] ∧ ¬ (s.state = .busy ∧ s.op = 2) ∧ s.state = .busy) ∧
    (let s := withEvent waiting (.attach [])
     s.inbox = .attach [] :: [] ∧ s.state = .busy ∧ s.op = 1) := by decide

theorem witness_AcceptedReadWaitsForTheFirstAnswer : State.reset.state ≠ .busy ∧ State.reset.sin = [] := by decide

/-- A `READ` waiting in its header, 123 bytes of it obtained. -/
def waitingInHeader : State := after State.reset (exec .read (ready (itemsOf ((pfx 124 2 2 32 0x40 0).take 127))))

/-- A `READ` waiting in its payload, nothing of it obtained. -/
@[irreducible] def waitingInPayload : State := after State.reset (exec .read (ready (itemsOf (pfx 124 2 2 32 0x40 0))))

/-- A `READ` waiting in a compressed payload, 8 bytes of it obtained. -/
def waitingInBlocks : State := after State.reset (exec .read (ready (itemsOf (pfx 124 4 4 32 4 0x31545844 ++ b0))))

theorem waiting_progress : waiting.ReadProgress := ⟨rfl, .inl ⟨rfl, by decide, rfl, rfl⟩⟩

theorem waitingInHeader_progress : waitingInHeader.ReadProgress :=
  ⟨by decide +kernel, .inr (.inl ⟨by decide +kernel, by decide +kernel, by decide +kernel, by decide +kernel⟩)⟩

theorem waitingInPayload_progress : waitingInPayload.ReadProgress := by
  have hk : keyFormat waitingInPayload.params (hPfFlags waitingInPayload.hdrBuf) (hFourCc waitingInPayload.hdrBuf) =
      some .uncompressed24 := by decide +kernel
  refine ⟨by decide +kernel, .inr (.inr ⟨by decide +kernel, by decide +kernel, by decide +kernel, by decide +kernel, ?_,
    by decide +kernel, by decide +kernel, ?_⟩)⟩
  · intro a ha
    exact absurd (Nat.lt_of_lt_of_eq ha (by decide +kernel : waitingInPayload.payloadGot = 0)) (Nat.not_lt_zero a)
  · rw [hk]
    exact ⟨by decide +kernel, by decide +kernel⟩

theorem waitingInBlocks_progress : waitingInBlocks.ReadProgress := by
  have hk : keyFormat waitingInBlocks.params (hPfFlags waitingInBlocks.hdrBuf) (hFourCc waitingInBlocks.hdrBuf) =
      some .bc1 := by decide +kernel
  refine ⟨by decide +kernel, .inr (.inr ⟨by decide +kernel, by decide +kernel, by decide +kernel, by decide +kernel, ?_,
    by decide +kernel, by decide +kernel, ?_⟩)⟩
  · have h : ∀ a, a < 8 → (waitingInBlocks.pbuf.read a).isSome = true := by decide +kernel
    intro a ha
    exact h a (Nat.lt_of_lt_of_eq ha (by decide +kernel : waitingInBlocks.payloadGot = 8))
  · rw [hk]
    exact (by decide +kernel : overCap waitingInBlocks.params waitingInBlocks.payloadGot = false)

/-- In each of the phases a `READ` can wait in; and a step of one, with a row at the port. -/
theorem witness_ReadWaitsWhileTheStreamIsSilent :
    (waiting.state = .busy ∧ waiting.ReadProgress ∧ waiting.sin = [] ∧ waiting.inbox = []) ∧
    (waitingInHeader.state = .busy ∧ waitingInHeader.ReadProgress ∧ waitingInHeader.sin = [] ∧
      waitingInHeader.inbox = []) ∧
    (waitingInPayload.state = .busy ∧ waitingInPayload.ReadProgress ∧ waitingInPayload.sin = [] ∧
      waitingInPayload.inbox = []) ∧
    (waitingInBlocks.state = .busy ∧ waitingInBlocks.ReadProgress ∧ waitingInBlocks.sin = [] ∧
      waitingInBlocks.inbox = []) ∧
    step (withEvent waiting (.present .pfkey 4)) = .next waiting :=
  ⟨⟨rfl, waiting_progress, rfl, rfl⟩,
    ⟨by decide +kernel, waitingInHeader_progress, by decide +kernel, by decide +kernel⟩,
    ⟨by decide +kernel, waitingInPayload_progress, by decide +kernel, by decide +kernel⟩,
    ⟨by decide +kernel, waitingInBlocks_progress, by decide +kernel, by decide +kernel⟩,
    next_of (by decide +kernel)⟩

/-- An error and a success, both with the capacity needed exactly (none, and 12 bytes). -/
theorem witness_ReadComputesTheWholeFunction :
    (let S := (pfx 124 2 2 32 0x40 0).take 3
     let s := { failed S with params := { Params.default with cap := some 0 } }
     s.state ≠ .busy ∧ s.sin = itemsOf S ++ StreamEnd.failed.item :: [] ∧ overCap s.params (readNeed s.params S) = false) ∧
    (let S := pfx 124 2 2 32 0x40 0 ++ List.replicate 13 1
     let s := { ended S with params := { Params.default with cap := some 12 } }
     s.state ≠ .busy ∧ s.sin = itemsOf S ++ StreamEnd.ended.item :: [] ∧
       overCap s.params (readNeed s.params S) = false) := by decide +kernel

theorem witness_ReadConsumesWhatTheTableSays :
    let S := pfx 124 2 2 32 0x40 0 ++ List.replicate 13 1
    (ended S).state ≠ .busy ∧ (ended S).sin = itemsOf S ++ StreamEnd.ended.item :: [] ∧
    exec .read (ended S) = .next (after State.reset (exec .read (ended S))) :=
  ⟨by decide, rfl, next_after (by decide +kernel)⟩

/-- One that waits, and one that has ended. -/
theorem witness_ReadDoesNotDependOnWhenAnswersArrive :
    (let s := ready (itemsOf [0x44, 0x44])
     State.reset.state ≠ .busy ∧ exec .read s = .next (after State.reset (exec .read s)) ∧
     (after State.reset (exec .read s)).state = .busy) ∧
    (let s := ready (itemsOf [0x64, 0x64, 0x73, 0x20])
     exec .read s = .next (after State.reset (exec .read s)) ∧ (after State.reset (exec .read s)).state ≠ .busy) :=
  ⟨⟨by decide, next_after (by decide), by decide⟩, next_after (by decide), by decide⟩

/-- A `READ` that waited for its first answer, and is told that the stream is broken. -/
def resumedFailing : State := offered waiting [.fail]

/-- A `READ` that fails in its payload, behind a good header; and one that waited and then fails. -/
theorem witness_FailedReadPublishesNothing :
    (let s := ended (pfx 124 2 2 32 0x40 0 ++ List.replicate 11 1)
     s.state ≠ .busy ∧ exec .read s = .next (after State.reset (exec .read s)) ∧
     (after State.reset (exec .read s)).state = .doneErr) ∧
    (resumedFailing.state = .busy ∧ resumedFailing.op = 1 ∧ resumedFailing.ResultsLegal ∧
     resumeRead resumedFailing = .next (after State.reset (resumeRead resumedFailing)) ∧
     (after State.reset (resumeRead resumedFailing)).state = .doneErr) :=
  ⟨⟨by decide, next_after (by decide +kernel), by decide +kernel⟩, rfl, rfl,
    ⟨fun _ => ⟨rfl, rfl, rfl, rfl⟩, fun _ => rfl, fun h => absurd h (by decide)⟩, next_after (by decide +kernel),
    by decide +kernel⟩

/-- A `READ` that succeeds, one that is refused, and one that goes on. -/
theorem witness_ReadFrame :
    (let s := ended (pfx 124 1 1 32 2 0 ++ [0x11, 0x22, 0x33])
     exec .read s = .next (after State.reset (exec .read s))) ∧
    exec .read waiting = .next waiting.reject ∧
    (waiting.state = .busy ∧ waiting.op = 1 ∧ resumeRead waiting = .next waiting) :=
  ⟨next_after (by decide +kernel), rfl, rfl, rfl, next_of (by decide +kernel)⟩

/-- The three clauses at their edges: one byte short of a block, one block short of the grid, and the grid exactly, with
the capacity exactly the raster's 48 bytes. -/
theorem witness_DecodeComputesTheWholeRaster :
    ((loaded 4 4 (b0.take 7)).state ≠ .busy ∧ overCap Params.default (loaded 4 4 (b0.take 7)).dDatalen = false ∧
      (loaded 4 4 (b0.take 7)).dDatalen % 8 ≠ 0) ∧
    ((loaded 5 3 b0).dDatalen % 8 = 0 ∧ (loaded 5 3 b0).dDatalen < gridCells 5 * gridCells 3 * 8) ∧
    ((loaded 4 4 b0).dDatalen % 8 = 0 ∧ gridCells 4 * gridCells 4 * 8 ≤ (loaded 4 4 b0).dDatalen ∧
      overCap { Params.default with cap := some 48 } ((4 : Word).toNat * (4 : Word).toNat * 3) = false ∧
      (3 : Nat) < (4 : Word).toNat) := by decide

/-- Vectors B11 and B12. -/
theorem witness_ZeroDimensionGivesAnEmptyRaster :
    ((loaded 0 0 []).state ≠ .busy ∧ overCap (loaded 0 0 []).params (loaded 0 0 []).dDatalen = false ∧
      (loaded 0 0 []).dWidth = 0 ∧ (loaded 0 0 []).dDatalen % 8 = 0 ∧
      (loaded 0 0 []).dDatalen < gridCells 0 * gridCells 0 * 8) ∧
    ((loaded 0 7 (b0 ++ b0)).dDatalen % 8 = 0 ∧
      gridCells 0 * gridCells 7 * 8 ≤ (loaded 0 7 (b0 ++ b0)).dDatalen) := by decide

theorem witness_BlockOrderIsUnobservable :
    let s := { loaded 8 4 (b0 ++ b1) with argWidth := 8, argHeight := 4 }
    Memory.wf [] = true ∧ List.Perm [1, 0] (List.range (gridBlocks s.argWidth s.argHeight)) := by decide

/-- The same block with and without an excess block behind it (vector B14), after different commands. -/
theorem witness_DecodeDependsOnItsInputsOnly :
    let s₁ := loaded 1 1 b0
    let s₂ := { loaded 1 1 (b0 ++ b1) with cmdRej := true, rbuf := [(0, 0xEE)], params := { Params.default with lanes := 4 } }
    s₁.state ≠ .busy ∧ s₂.state ≠ .busy ∧ s₁.dWidth = s₂.dWidth ∧ s₁.dHeight = s₂.dHeight ∧
    s₁.params.blend = s₂.params.blend ∧ (∀ j, j < 8 → s₁.dbuf.read j = s₂.dbuf.read j ∧ (s₁.dbuf.read j).isSome = true) ∧
    (after State.reset (exec .decode s₁)).state = .doneOk ∧ (after State.reset (exec .decode s₂)).state = .doneOk := by
  decide

/-- The last pixel of a 5 by 3 raster writes its last byte, 44. -/
theorem witness_PixelWritesStayInsideTheRaster :
    Memory.wf [] = true ∧
    (writePixel 5 3 ⟨black, black, black, black⟩ 0 1 [] 8).read 44 ≠ Memory.read [] 44 := by decide

/-- The first and the last byte of a 5 by 3 raster. -/
theorem witness_EveryRasterByteIsWrittenOnce :
    0 < (5 : Word).toNat * (3 : Word).toNat * 3 ∧ 44 < (5 : Word).toNat * (3 : Word).toNat * 3 := by decide

theorem witness_DecodeFrame :
    exec .decode (loaded 1 1 b0) = .next (after State.reset (exec .decode (loaded 1 1 b0))) ∧
    exec .decode waiting = .next waiting.reject :=
  ⟨next_after (by decide +kernel), rfl⟩

theorem witness_NoInstructionWritesTheArguments :
    exec (.cx5 3) State.reset = .next { State.reset with chOut := 25 } :=
  next_of (by decide +kernel)

theorem witness_OnlyReadPullsTheStream :
    exec .sel0 (ended []) = .next (ended []) ∧
    exec .read (ended [1, 2, 3]) = .next (after State.reset (exec .read (ended [1, 2, 3]))) ∧
    coreStep resumedFailing = .next (after State.reset (coreStep resumedFailing)) ∧
    coreStep State.reset = .next State.reset ∧ ¬ (State.reset.state = .busy ∧ State.reset.op = 1) :=
  ⟨next_of (by decide +kernel), next_after (by decide), next_after (by decide), rfl, by decide⟩

/-- A change of each argument register. -/
theorem witness_ArgumentsChangeByHostWriteOnly :
    (after State.reset (step (withEvent State.reset (.write (.dWidth 4))))).dWidth ≠ State.reset.dWidth ∧
    (after State.reset (step (withEvent State.reset (.write (.dHeight 4))))).dHeight ≠ State.reset.dHeight ∧
    (after State.reset (step (withEvent State.reset (.write (.dDatalen 8))))).dDatalen ≠ State.reset.dDatalen := by decide

/-- A change of each kind: reset, failure of a running `READ`, acceptance. -/
theorem witness_StatusStateTransitions :
    (after State.reset (step (withEvent waiting .reset))).state ≠ waiting.state ∧
    (after State.reset (step { waiting with sin := [.fail] })).state ≠ waiting.state ∧
    (after State.reset (step (withEvent State.reset (.write (.cmd 1))))).state ≠ State.reset.state := by decide

theorem witness_CmdRejIsSticky :
    let s := { withEvent State.reset (.write (.cmd 1)) with cmdRej := true }
    step s = .next (after State.reset (step s)) ∧ s.cmdRej = true ∧ (after State.reset (step s)).cmdRej = false :=
  ⟨next_after (by decide), by decide, by decide⟩

/-- Each of the three instructions that can end a command with an error, the two commands also where the one before had
failed; and a `READ` that fails when it goes on. -/
theorem witness_OnlyCommandsFail :
    (State.reset.state ≠ .doneErr ∧ (after State.reset (exec .read (ended []))).state = .doneErr) ∧
    (after State.reset (exec .decode State.reset)).state = .doneErr ∧
    (checking.state ≠ .doneErr ∧ (after State.reset (exec (.fmtUnsup 4 0) checking)).state = .doneErr) ∧
    (let s := { ended [] with state := .doneErr, op := 2 }
     s.state ≠ .busy ∧ (after State.reset (exec .read s)).state = .doneErr ∧
     (after State.reset (exec .decode s)).state = .doneErr) ∧
    (resumedFailing.state = .busy ∧ resumedFailing.op = 1 ∧
     (after State.reset (resumeRead resumedFailing)).state = .doneErr) := by decide

/-- Without a capacity; and a capacity of one byte refuses a `DECODE` of a whole block. -/
theorem witness_EveryInstructionRuns :
    State.reset.params.cap = none ∧
    exec .decode { loaded 1 1 b0 with params := oneByte } = .refused (.overCapacity 8) :=
  ⟨rfl, rfl⟩

/-- One byte beyond the capacity: of the input, and of the raster. -/
theorem witness_CapacityStopsDecode :
    ((loaded 1 1 b0).state ≠ .busy ∧ 7 < (loaded 1 1 b0).dDatalen) ∧
    ((loaded 4 1 b0).dDatalen ≤ 11 ∧ (loaded 4 1 b0).dDatalen % 8 = 0 ∧
      gridCells (loaded 4 1 b0).dWidth * gridCells (loaded 4 1 b0).dHeight * 8 ≤ (loaded 4 1 b0).dDatalen ∧
      11 < (loaded 4 1 b0).dWidth.toNat * (loaded 4 1 b0).dHeight.toNat * 3) := by decide

/-- One byte more than the capacity, with nothing ready behind it; and a header alone whose payload would be one byte more
than the capacity. -/
theorem witness_CapacityStopsRead :
    (let S := pfx 124 4 4 32 4 0x31545844 ++ b0
     let s := { ready (itemsOf S) with params := { Params.default with cap := some 7 } }
     s.state ≠ .busy ∧ s.params.cap = some 7 ∧ s.sin = itemsOf S ++ [] ∧ 7 < readNeed s.params S) ∧
    (let S := pfx 124 2 2 32 0x40 0
     let s := { ended S with params := { Params.default with cap := some 11 } }
     s.state ≠ .busy ∧ s.params.cap = some 11 ∧ s.sin = itemsOf S ++ [.endOfStream] ∧ 11 < readNeed s.params S) ∧
    ∀ b, ([.endOfStream] : List StreamItem).head? ≠ some (.byte b) :=
  ⟨by decide +kernel, by decide +kernel, fun _ h => nomatch h⟩

theorem witness_StepKeepsBuffersCanonical :
    State.reset.BuffersCanonical ∧ step State.reset = .next State.reset := by
  exact ⟨⟨rfl, rfl, rfl⟩, rfl⟩

theorem filledTo_zero (m : Memory) : m.FilledTo 0 := fun _ h => absurd h (Nat.not_lt_zero _)

/-- The state after a failed `DECODE` (vector K8). -/
def decodeFailed : State := after State.reset (exec .decode State.reset)

theorem witness_StepKeepsTheHandshake : decodeFailed.HandshakeLegal ∧ step decodeFailed = .next decodeFailed := by
  refine ⟨⟨⟨by decide, by decide⟩, ?_, ?_, ?_, ?_⟩, next_of (by decide +kernel)⟩
  · unfold State.ErrorsLegal
    decide
  · exact fun h => absurd h.1 (by decide)
  · exact fun _ => by decide
  · exact fun h => absurd h (by decide)

/-- A `READ` that waits in its payload and is handed its next byte. -/
@[irreducible] def payloadByteReady : State := offered waitingInPayload [.byte 7]

theorem payloadByteReady_noTexture : payloadByteReady.NoTexture :=
  ⟨by decide +kernel, by decide +kernel, by decide +kernel, by decide +kernel⟩

theorem payloadByteReady_results : payloadByteReady.ResultsLegal :=
  ⟨fun _ => payloadByteReady_noTexture, fun _ => by decide +kernel,
    fun h => absurd h (by decide +kernel : payloadByteReady.op ≠ 0)⟩

theorem payloadByteReady_buffers : payloadByteReady.BuffersCanonical :=
  ⟨by decide +kernel, by decide +kernel, by decide +kernel⟩

theorem payloadByteReady_texture : payloadByteReady.TextureWhole := by
  refine ⟨?_, fun _ => by decide +kernel, fun h => absurd h.2 (by decide +kernel)⟩
  rw [payloadByteReady_noTexture.2.2.2]
  exact filledTo_zero _

/-- What the stream has ready is no part of a `READ`'s progress. -/
theorem readProgress_offered {s : State} {items : List StreamItem} (h : s.ReadProgress) :
    (offered s items).ReadProgress := h

theorem phaseLegal_busy {s : State} (h : s.state = .busy) (hp : s.ReadProgress) : s.PhaseLegal := by
  unfold State.PhaseLegal
  rw [h]
  exact hp

theorem payloadByteReady_busy : payloadByteReady.state = .busy := by decide +kernel

theorem payloadByteReady_phase : payloadByteReady.PhaseLegal := by
  refine phaseLegal_busy payloadByteReady_busy ?_
  unfold payloadByteReady
  exact readProgress_offered waitingInPayload_progress

theorem payloadByteReady_lands : (landed (step payloadByteReady)).isSome = true := by decide +kernel

theorem payloadByteReady_steps : step payloadByteReady = .next (after State.reset (step payloadByteReady)) :=
  next_after payloadByteReady_lands

theorem witness_StepKeepsTheTextureWhole :
    (payloadByteReady.PhaseLegal ∧ payloadByteReady.ResultsLegal ∧ payloadByteReady.TextureWhole ∧
      payloadByteReady.BuffersCanonical) ∧
    step payloadByteReady = .next (after State.reset (step payloadByteReady)) :=
  ⟨⟨payloadByteReady_phase, payloadByteReady_results, payloadByteReady_texture, payloadByteReady_buffers⟩,
    payloadByteReady_steps⟩

/-- A 1 by 1 raster after its `DECODE`. -/
def decodedOne : State := after State.reset (exec .decode (loaded 1 1 b0))

theorem witness_StepKeepsTheRasterWhole :
    (decodedOne.PhaseLegal ∧ decodedOne.RasterWhole ∧ decodedOne.BuffersCanonical) ∧ step decodedOne = .next decodedOne := by
  refine ⟨⟨?_, ⟨?_, fun _ => by decide +kernel⟩, by decide +kernel, by decide +kernel, by decide +kernel⟩,
    next_of (by decide +kernel)⟩
  · unfold State.PhaseLegal
    rw [(by decide +kernel : decodedOne.state = .doneOk)]
    exact (by decide +kernel : decodedOne.phase = .pDone)
  · have h : ∀ a, a < 3 → (decodedOne.rbuf.read a).isSome = true := by decide +kernel
    intro a ha
    exact h a (Nat.lt_of_lt_of_eq ha (by decide +kernel))

/-- The largest value a host can write to `D_DATALEN`. -/
theorem witness_StepKeepsLengthsWithin66Bits :
    let s := { withEvent State.reset .idle with dDatalen := 2 ^ 66 - 1 }
    s.LengthsFit ∧ step s = .next { s with inbox := [] } := by
  refine ⟨⟨by decide, by decide, by decide, by decide, fun _ => by decide⟩, rfl⟩

end Sys2Proof.Tests
end

section
/-! PROOF. The bounded lengths stay within `LEN_W` bits (R9, R221): each of the things a step can do keeps them so. -/

namespace Sys2Proof.Machine

theorem State.LengthsFit.acceptRead {s : State} (h : s.LengthsFit) : s.acceptRead.LengthsFit := by
  obtain ⟨hd, ha, hr, -, -⟩ := h
  exact ⟨hd, ha, hr, by simp, by simp⟩

/-- Acceptance of a `DECODE` samples `D_DATALEN`, whose bound the copy inherits. -/
theorem State.LengthsFit.acceptDecode {s : State} (h : s.LengthsFit) : s.acceptDecode.LengthsFit := by
  obtain ⟨hd, -, -, -, hp⟩ := h
  exact ⟨hd, hd, by simp, by simp, hp⟩

/-- The expected value of an unsupported code is the 32-bit code of BC1. -/
theorem State.LengthsFit.raiseUnsupported {s : State} (h : s.LengthsFit) (fourCc : Word) :
    (s.raiseUnsupported fourCc).LengthsFit := by
  obtain ⟨hd, ha, hr, -, hp⟩ := h
  exact ⟨hd, ha, hr, by have := s.params.fourccBc1.isLt; simp [State.raiseUnsupported]; omega, hp⟩

/-- `D_DATALEN` has 66 bits on the host's side (R20, R31). -/
theorem State.LengthsFit.writeDDatalen {s : State} (h : s.LengthsFit) (v : BitVec 66) :
    (s.writeDDatalen v).LengthsFit := by
  unfold State.writeDDatalen
  split
  · exact h
  · obtain ⟨-, ha, hr, he, hp⟩ := h
    exact ⟨v.isLt, ha, hr, he, hp⟩

theorem State.LengthsFit.writeDWidth {s : State} (h : s.LengthsFit) (v : Word) : (s.writeDWidth v).LengthsFit := by
  unfold State.writeDWidth
  split <;> exact h

theorem State.LengthsFit.writeDHeight {s : State} (h : s.LengthsFit) (v : Word) : (s.writeDHeight v).LengthsFit := by
  unfold State.writeDHeight
  split <;> exact h

theorem State.resetNow_lengthsFit (s : State) : s.resetNow.LengthsFit := by
  simp [State.LengthsFit, State.resetNow, State.reset]

/-- A running `READ` leaves the lengths of `DECODE` alone; it bounds `ERREXP` where it fails and an uncompressed
`T_PAYLEN` where it succeeds. -/
theorem State.LengthsFit.ofReadOutcome {s t : State} (h : s.LengthsFit) (o : ReadOutcome s t) : t.LengthsFit := by
  obtain ⟨hd, ha, hr, he, hp⟩ := h
  have fd : t.dDatalen = s.dDatalen := by rw [o.frame]; rfl
  have fa : t.argDatalen = s.argDatalen := by rw [o.frame]; rfl
  have fr : t.dRaslen = s.dRaslen := by rw [o.frame]; rfl
  refine ⟨fd ▸ hd, fa ▸ ha, fr ▸ hr, ?_⟩
  rcases o.result with
    ⟨-, ⟨-, -, ee, -⟩, ⟨-, -, ef, ep⟩⟩ | ⟨-, -, -, ⟨-, -, ef, ep⟩, ee, -⟩ | ⟨-, -, ⟨-, -, ee, -⟩, ep⟩
  · exact ⟨ee ▸ he, by rw [ef, ep]; exact hp⟩
  · exact ⟨ee, by rw [ef, ep]; exact hp⟩
  · exact ⟨by simp [ee], ep⟩

/-- A running `DECODE` leaves `READ`'s lengths alone; it bounds `ERREXP` where it fails and `D_RASLEN` where it
succeeds. -/
theorem State.LengthsFit.ofDecodeOutcome {s t : State} (h : s.LengthsFit) (o : DecodeOutcome s t) : t.LengthsFit := by
  obtain ⟨hd, ha, hr, -, hp⟩ := h
  have fd : t.dDatalen = s.dDatalen := by rw [o.frame]; rfl
  have ff : t.tFormat = s.tFormat := by rw [o.frame]; rfl
  have fp : t.tPaylen = s.tPaylen := by rw [o.frame]; rfl
  obtain ⟨-, -, fa⟩ := o.args
  refine ⟨fd ▸ hd, fa ▸ ha, ?_, ?_, by rw [ff, fp]; exact hp⟩
  · rcases o.result with ⟨-, -, er, -⟩ | ⟨-, -, er, -⟩
    · exact er ▸ hr
    · exact er ▸ rasterBytes_lt _ _
  · rcases o.result with ⟨-, -, -, ee, -⟩ | ⟨-, ⟨-, -, ee, -⟩, -⟩
    · exact ee
    · simp [ee]

theorem exec_keeps_lengthsFit {i : Instr} {s t : State} (h : s.LengthsFit) (he : exec i s = .next t) :
    t.LengthsFit := by
  rcases exec_outcome he with ⟨-, ⟨-, rfl⟩ | ⟨-, o⟩⟩ | ⟨-, ⟨-, rfl⟩ | ⟨-, o⟩⟩ | ⟨⟨_, fourCc, -, rfl⟩, -⟩ |
    ⟨-, -, rfl | rfl | ⟨_, rfl⟩ | ⟨_, rfl⟩ | ⟨_, rfl⟩ | ⟨_, _, _, _, rfl⟩⟩
  case inl.inr => exact h.acceptRead.ofReadOutcome o
  case inr.inl.inr => exact h.acceptDecode.ofDecodeOutcome o
  case inr.inr.inl => exact h.raiseUnsupported fourCc
  all_goals exact h

theorem coreStep_keeps_lengthsFit {s t : State} (h : s.LengthsFit) (hc : coreStep s = .next t) : t.LengthsFit := by
  rcases coreStep_outcome hc with rfl | ⟨-, o⟩ | ⟨-, o⟩
  · exact h
  · exact h.ofReadOutcome o
  · exact h.ofDecodeOutcome o

/-- Settles O59: of the events, only a write of `D_DATALEN`, a command and a reset touch a bounded length. -/
theorem stepKeepsLengthsWithin66Bits : Obligations.StepKeepsLengthsWithin66Bits := by
  intro s t h hstep
  rcases step_cases hstep with ⟨-, hc⟩ | ⟨e, es, -, ⟨-, hc⟩ | ⟨i, -, hi⟩ | ⟨v, -, rfl⟩ | ⟨v, -, rfl⟩ | ⟨v, -, rfl⟩ |
    ⟨-, rfl⟩ | ⟨a, b, -, -, -, rfl⟩ | ⟨i, -, rfl⟩ | ⟨items, -, -, rfl⟩ | ⟨-, rfl⟩⟩
  · exact coreStep_keeps_lengthsFit h hc
  all_goals have h' : ({ s with inbox := es } : State).LengthsFit := h
  · exact coreStep_keeps_lengthsFit h' hc
  · exact exec_keeps_lengthsFit h' hi
  · exact h'.writeDWidth v
  · exact h'.writeDHeight v
  · exact h'.writeDDatalen v
  · exact h'
  · exact h'
  · exact h'
  · exact h'
  · exact State.resetNow_lengthsFit _

end Sys2Proof.Machine
end

section
/-! PROOF. `READ` does not depend on when the stream answers (R17, R255). Two facts about each phase carry it: a phase
that has waited and goes on does what it would have done with every answer ready, because what it stored while waiting is
the front of what it obtains; and a phase that has all it wants does not look at the answers behind. -/

namespace Sys2Proof.Machine

/-- `s` with the answers `B` behind those the stream has ready. -/
def State.feed (s : State) (B : List StreamItem) : State := { s with sin := s.sin ++ B }

section
variable (s : State) (B : List StreamItem)

@[simp] theorem State.feed_sin : (s.feed B).sin = s.sin ++ B := rfl
@[simp] theorem State.feed_params : (s.feed B).params = s.params := rfl
@[simp] theorem State.feed_hdrBuf : (s.feed B).hdrBuf = s.hdrBuf := rfl

end

/-- `t`, where a `READ` stands that has taken the answers ready for it, and `o`, what a `READ` comes to that has `B` ready
as well: `t` going on with `B` comes to `o` too, or has ended and leaves `B` in the stream. -/
def State.AgreesWith (t : State) (B : List StreamItem) (o : Host.Outcome State Fault Refusal) : Prop :=
  (t.state = .busy → resumeRead { t with sin := B } = o) ∧ (t.state ≠ .busy → o = .next (t.feed B))

theorem State.AgreesWith.of_busy {t : State} {B : List StreamItem} {o : Host.Outcome State Fault Refusal}
    (hb : t.state = .busy) (h : resumeRead { t with sin := B } = o) : t.AgreesWith B o :=
  ⟨fun _ => h, fun hn => absurd hb hn⟩

theorem State.AgreesWith.of_ended {t : State} {B : List StreamItem} {o : Host.Outcome State Fault Refusal}
    (hn : t.state ≠ .busy) (h : o = .next (t.feed B)) : t.AgreesWith B o :=
  ⟨fun hb => absurd hb hn, fun _ => h⟩

/-! ### Pulling in two runs -/

/-- `StreamRead(n)` takes no answer behind the `n`-th byte. -/
theorem streamRead_of_length_eq {n : Nat} {got : List Byte} (rest : List StreamItem) (h : got.length = n) :
    streamRead n (itemsOf got ++ rest) = .complete got rest := by
  subst h
  simpa using streamRead_of_le (S := got) rest (Nat.le_refl _)

theorem State.storeMagic_storeMagic (s : State) (g g' : List Byte) (r r' : List StreamItem) :
    (s.storeMagic g r).storeMagic g' r' = s.storeMagic (g ++ g') r' := by
  simp [State.storeMagic, State.pulled, Nat.add_assoc]

theorem State.storeHeader_storeHeader (s : State) (g g' : List Byte) (r r' : List StreamItem) :
    (s.storeHeader g r).storeHeader g' r' = s.storeHeader (g ++ g') r' := by
  simp [State.storeHeader, State.pulled, Nat.add_assoc]

/-- Behind the header, `SPOS` counts the payload. -/
theorem State.storePayload_payloadGot {s : State} (h : 128 ≤ s.spos) (g : List Byte) (r : List StreamItem) :
    (s.storePayload g r).payloadGot = s.payloadGot + g.length := by
  simp only [payloadGot_eq, State.storePayload_spos]
  omega

theorem State.storePayload_storePayload {s : State} (h : 128 ≤ s.spos) (g g' : List Byte) (r r' : List StreamItem) :
    (s.storePayload g r).storePayload g' r' = s.storePayload (g ++ g') r' := by
  have hp := State.storePayload_payloadGot h g r
  simp only [State.storePayload, State.pulled] at hp ⊢
  rw [hp]
  simp [Memory.writeList_append, Nat.add_assoc]

/-! ### What a phase does once the stream has answered it -/

section
variable {s : State} {g : List Byte} {e : StreamItem} {r : List StreamItem}

theorem readMagic_of_short (hi : s.sin = itemsOf g ++ e :: r) (he : e = .endOfStream ∨ e = .fail)
    (hl : g.length < 4 - s.magicBuf.length) :
    readMagic s = .next ((s.storeMagic g r).raise .sMagic 4 (s.magicBuf.length + g.length)) := by
  have hm : magicBytes.length = 4 := rfl
  unfold readMagic
  rw [hm, hi, streamRead_of_gt r he hl]

theorem readMagic_of_complete (hi : s.sin = itemsOf g ++ r) (hl : g.length = 4 - s.magicBuf.length) :
    readMagic s = readMagicCheck (s.storeMagic g r) := by
  have hm : magicBytes.length = 4 := rfl
  unfold readMagic
  rw [hm, hi, streamRead_of_length_eq r hl]

theorem readHeader_of_short (hi : s.sin = itemsOf g ++ e :: r) (he : e = .endOfStream ∨ e = .fail)
    (hl : g.length < 124 - s.hdrBuf.length) :
    readHeader s = .next ((s.storeHeader g r).raise .sHeader 124 (s.hdrBuf.length + g.length)) := by
  unfold readHeader hdrSize
  rw [hi, streamRead_of_gt r he hl]

theorem readHeader_of_complete (hi : s.sin = itemsOf g ++ r) (hl : g.length = 124 - s.hdrBuf.length) :
    readHeader s = readCheck ((s.storeHeader g r).enter .pCheck) := by
  unfold readHeader hdrSize
  rw [hi, streamRead_of_length_eq r hl]

theorem readRest_of_failed (hi : s.sin = itemsOf g ++ .fail :: r)
    (hc : overCap s.params (s.payloadGot + g.length) = false) :
    readRest s = .next ((s.storePayload g r).raise .sPayload 0 (s.payloadGot + g.length)) := by
  unfold readRest
  rw [hi, streamRest_failed]
  simp [hc]

theorem readRest_of_ended (hi : s.sin = itemsOf g ++ .endOfStream :: r)
    (hc : overCap s.params (s.payloadGot + g.length) = false) :
    readRest s = .next ((s.storePayload g r).completeRead (hWidth s.hdrBuf) (hHeight s.hdrBuf) .bc1
      (s.payloadGot + g.length)) := by
  unfold readRest
  rw [hi, streamRest_ended]
  simp [hc]

theorem readExact_of_short {fmt : TexFormat} {len : Nat} (hc : overCap s.params len = false)
    (hi : s.sin = itemsOf g ++ e :: r) (he : e = .endOfStream ∨ e = .fail) (hl : g.length < len - s.payloadGot) :
    readExact fmt len s = .next ((s.storePayload g r).raise .sPayload len (s.payloadGot + g.length)) := by
  unfold readExact
  rw [hi, streamRead_of_gt r he hl]
  simp [hc]

theorem readExact_of_complete {fmt : TexFormat} {len : Nat} (hc : overCap s.params len = false)
    (hi : s.sin = itemsOf g ++ r) (hl : g.length = len - s.payloadGot) :
    readExact fmt len s =
      .next ((s.storePayload g r).completeRead (hWidth s.hdrBuf) (hHeight s.hdrBuf) fmt len) := by
  unfold readExact
  rw [hi, streamRead_of_length_eq r hl]
  simp [hc]

end

/-! ### A phase that has waited goes on as if it had not -/

section
variable {s : State} {g : List Byte} {B : List StreamItem}

theorem readMagic_storeMagic (hi : s.sin = itemsOf g ++ B) (hl : g.length ≤ 4 - s.magicBuf.length) :
    readMagic (s.storeMagic g B) = readMagic s := by
  have hm : magicBytes.length = 4 := rfl
  unfold readMagic
  rw [hi, hm, streamRead_append B hl]
  simp only [State.storeMagic_magicBuf, State.storeMagic_sin, List.length_append, Nat.sub_add_eq]
  cases streamRead (4 - s.magicBuf.length - g.length) B <;>
    simp [Pulled.prepend, State.storeMagic_storeMagic, Nat.add_assoc]

theorem readHeader_storeHeader (hi : s.sin = itemsOf g ++ B) (hl : g.length ≤ 124 - s.hdrBuf.length) :
    readHeader (s.storeHeader g B) = readHeader s := by
  unfold readHeader hdrSize
  rw [hi, streamRead_append B hl]
  simp only [State.storeHeader_hdrBuf, State.storeHeader_sin, List.length_append, Nat.sub_add_eq]
  cases streamRead (124 - s.hdrBuf.length - g.length) B <;>
    simp [Pulled.prepend, State.storeHeader_storeHeader, Nat.add_assoc]

theorem readRest_storePayload (hi : s.sin = itemsOf g ++ B) (hs : 128 ≤ s.spos) :
    readRest (s.storePayload g B) = readRest s := by
  unfold readRest
  rw [hi, streamRest_append, State.storePayload_sin, State.storePayload_payloadGot hs]
  cases streamRest B <;> simp [Pulled.prepend, State.storePayload_storePayload hs, Nat.add_assoc]

theorem readExact_storePayload {fmt : TexFormat} {len : Nat} (hi : s.sin = itemsOf g ++ B) (hs : 128 ≤ s.spos)
    (hl : g.length ≤ len - s.payloadGot) : readExact fmt len (s.storePayload g B) = readExact fmt len s := by
  unfold readExact
  rw [hi, streamRead_append B hl, State.storePayload_sin, State.storePayload_payloadGot hs, Nat.sub_add_eq]
  cases streamRead (len - s.payloadGot - g.length) B <;>
    simp [Pulled.prepend, State.storePayload_storePayload hs, Nat.add_assoc]

end

/-! ### The payload -/

/-- Where the payload comes to with the answers ready, and with `B` behind them. -/
def State.PayloadAgrees (s t : State) (B : List StreamItem) (f : State → Host.Outcome State Fault Refusal) : Prop :=
  (∃ g, t = s.storePayload g [] ∧ f (s.storePayload g B) = f (s.feed B)) ∨
  (t.state ≠ .busy ∧ f (s.feed B) = .next (t.feed B))

theorem readRest_agrees {s t : State} (B : List StreamItem) (hs : 128 ≤ s.spos) (h : readRest s = .next t) :
    s.PayloadAgrees t B readRest := by
  rcases readRest_cases h with ⟨g, hi, -, rfl⟩ | ⟨g, r, hi, hc, rfl⟩ | ⟨g, r, hi, hc, rfl⟩
  · exact .inl ⟨g, rfl, readRest_storePayload (s := s.feed B) (by simp [hi]) hs⟩
  · exact .inr ⟨by simp, readRest_of_failed (s := s.feed B) (r := r ++ B) (by simp [hi]) hc⟩
  · exact .inr ⟨by simp, readRest_of_ended (s := s.feed B) (r := r ++ B) (by simp [hi]) hc⟩

theorem readExact_agrees {s t : State} {fmt : TexFormat} {len : Nat} (B : List StreamItem) (hs : 128 ≤ s.spos)
    (h : readExact fmt len s = .next t) : s.PayloadAgrees t B (readExact fmt len) := by
  obtain ⟨hc, ⟨g, hi, hl, rfl⟩ | ⟨g, r, e, hi, he, hl, rfl⟩ | ⟨g, r, hi, hl, rfl⟩⟩ := readExact_cases h
  · exact .inl ⟨g, rfl, readExact_storePayload (s := s.feed B) (by simp [hi]) hs (Nat.le_of_lt hl)⟩
  · exact .inr ⟨by simp, readExact_of_short (s := s.feed B) (r := r ++ B) hc (by simp [hi]) he hl⟩
  · exact .inr ⟨by simp, readExact_of_complete (s := s.feed B) (r := r ++ B) hc (by simp [hi]) hl⟩

theorem readPayload_of_ne_bc1 {s : State} {fmt : TexFormat} (h : fmt ≠ .bc1) :
    readPayload fmt s = readExact fmt (payloadLength (hWidth s.hdrBuf) (hHeight s.hdrBuf) fmt) s := by
  cases fmt with
  | uncompressed24 => exact readPayload_uncompressed24 s
  | uncompressed32 => exact readPayload_uncompressed32 s
  | bc1 => exact absurd rfl h

theorem readPayload_agrees {s t : State} {fmt : TexFormat} (B : List StreamItem) (hs : 128 ≤ s.spos)
    (h : readPayload fmt s = .next t) : s.PayloadAgrees t B (readPayload fmt) := by
  by_cases hne : fmt = .bc1
  · subst hne
    exact readRest_agrees B hs h
  · rw [readPayload_of_ne_bc1 hne] at h
    unfold State.PayloadAgrees
    simp only [readPayload_of_ne_bc1 hne, State.storePayload_hdrBuf, State.feed_hdrBuf]
    exact readExact_agrees B hs h

/-! ### The phases, from the last to the first -/

/-- Step 6 where the key selects a format. -/
theorem readFormat_of_some {s : State} {fmt : TexFormat}
    (hk : keyFormat s.params (hPfFlags s.hdrBuf) (hFourCc s.hdrBuf) = some fmt) :
    readFormat s = readPayload fmt ((s.selectFormat fmt).enter .pPayload) := by
  simp [readFormat, hk]

theorem readFormat_agrees {s t : State} (B : List StreamItem) (hb : s.state = .busy) (hs : 128 ≤ s.spos)
    (h : readFormat s = .next t) : t.AgreesWith B (readFormat (s.feed B)) := by
  rcases readFormat_cases h with ⟨hk, rfl⟩ | ⟨fmt, hk, h⟩
  · refine .of_ended (by simp [State.raiseUnsupported]) ?_
    simp only [readFormat, State.feed_params, State.feed_hdrBuf, hk]
    rfl
  · have hfeed : readFormat (s.feed B) = readPayload fmt (((s.selectFormat fmt).enter .pPayload).feed B) :=
      readFormat_of_some hk
    rcases readPayload_agrees (s := (s.selectFormat fmt).enter .pPayload) B hs h with ⟨g, rfl, hg⟩ | ⟨hn, ho⟩
    · refine .of_busy hb ?_
      calc resumeRead (((s.selectFormat fmt).enter .pPayload).storePayload g B)
        _ = readFormat (((s.selectFormat fmt).enter .pPayload).storePayload g B) := rfl
        _ = readPayload fmt (((s.selectFormat fmt).enter .pPayload).storePayload g B) := readFormat_of_some hk
        _ = readFormat (s.feed B) := hg.trans hfeed.symm
    · exact .of_ended hn (hfeed.trans ho)

theorem readCheck_agrees {s t : State} (B : List StreamItem) (hb : s.state = .busy) (hs : 128 ≤ s.spos)
    (h : readCheck s = .next t) : t.AgreesWith B (readCheck (s.feed B)) := by
  rcases readCheck_cases h with ⟨h1, rfl⟩ | ⟨h1, h2, rfl⟩ | ⟨h1, h2, h⟩
  · exact .of_ended (by simp) (if_pos h1)
  · exact .of_ended (by simp) ((if_neg (not_not.mpr h1)).trans (if_pos h2))
  · have hf : readCheck (s.feed B) = readFormat (s.feed B) :=
      (if_neg (not_not.mpr h1)).trans (if_neg (not_not.mpr h2))
    exact hf ▸ readFormat_agrees B hb hs h

theorem readHeader_agrees {s t : State} (B : List StreamItem) (hb : s.state = .busy) (hp : s.phase = .pHeader)
    (hs : 4 + s.hdrBuf.length ≤ s.spos) (h : readHeader s = .next t) : t.AgreesWith B (readHeader (s.feed B)) := by
  rcases readHeader_cases h with ⟨g, hi, hl, rfl⟩ | ⟨g, r, e, hi, he, hl, rfl⟩ | ⟨g, r, hi, hl, h⟩
  · have hr : resumeRead (s.storeHeader g B) = readHeader (s.storeHeader g B) := by simp [resumeRead, hp]
    exact .of_busy hb (hr.trans (readHeader_storeHeader (s := s.feed B) (by simp [hi]) (Nat.le_of_lt hl)))
  · exact .of_ended (by simp) (readHeader_of_short (s := s.feed B) (r := r ++ B) (by simp [hi]) he hl)
  · have hf : readHeader (s.feed B) = readCheck (((s.storeHeader g r).enter .pCheck).feed B) :=
      readHeader_of_complete (by simp [hi]) hl
    exact hf ▸ readCheck_agrees B hb (by simp; omega) h

theorem readMagic_agrees {s t : State} (B : List StreamItem) (hb : s.state = .busy) (hp : s.phase = .pMagic)
    (hs : s.magicBuf.length + s.hdrBuf.length ≤ s.spos) (h : readMagic s = .next t) :
    t.AgreesWith B (readMagic (s.feed B)) := by
  have hwhole : ∀ g r, s.sin = itemsOf g ++ r → g.length = 4 - s.magicBuf.length →
      readMagic (s.feed B) = readMagicCheck ((s.storeMagic g r).feed B) :=
    fun g r hi hl => readMagic_of_complete (by simp [hi]) hl
  rcases readMagic_cases h with
    ⟨g, hi, hl, rfl⟩ | ⟨g, r, e, hi, he, hl, rfl⟩ | ⟨g, r, hi, hl, hne, rfl⟩ | ⟨g, r, hi, hl, heq, h⟩
  · have hr : resumeRead (s.storeMagic g B) = readMagic (s.storeMagic g B) := by simp [resumeRead, hp]
    exact .of_busy hb (hr.trans (readMagic_storeMagic (s := s.feed B) (by simp [hi]) (Nat.le_of_lt hl)))
  · exact .of_ended (by simp) (readMagic_of_short (s := s.feed B) (r := r ++ B) (by simp [hi]) he hl)
  · exact .of_ended (by simp) ((hwhole g r hi hl).trans (if_pos hne))
  · have hf : readMagic (s.feed B) = readHeader (((s.storeMagic g r).enter .pHeader).feed B) :=
      (hwhole g r hi hl).trans (if_neg (not_not.mpr heq))
    exact hf ▸ readHeader_agrees B hb rfl (by simp; omega) h

/-- Settles O35: `READ` outside `BUSY` is its first phase from the accepted state, whose answers are those ready. -/
theorem readDoesNotDependOnWhenAnswersArrive : Obligations.ReadDoesNotDependOnWhenAnswersArrive := by
  intro s t A B hn h
  rcases execRead_cases (s := { s with sin := A }) h with ⟨hb, -⟩ | ⟨-, h⟩
  · exact absurd hb hn
  · have hf : exec .read { s with sin := A ++ B } = readMagic (({ s with sin := A } : State).acceptRead.feed B) :=
      if_neg hn
    rw [hf]
    exact readMagic_agrees B rfl rfl (by simp) h

end Sys2Proof.Machine
end

section
/-! PROOF. A step in two moves: what leaves the handshake, the results and the sequencer alone, and then at most one move of
the core or a reset. Every invariant of the commands is kept by the first kind at once, and is a short case analysis of the
second. -/

namespace Sys2Proof.Machine

section
variable (s : State)

theorem State.writeDWidth_eq (v : Word) : s.writeDWidth v = { s with dWidth := if s.Busy then s.dWidth else v } := by
  unfold State.writeDWidth
  split <;> rfl

theorem State.writeDHeight_eq (v : Word) :
    s.writeDHeight v = { s with dHeight := if s.Busy then s.dHeight else v } := by
  unfold State.writeDHeight
  split <;> rfl

theorem State.writeDDatalen_eq (v : BitVec 66) :
    s.writeDDatalen v = { s with dDatalen := if s.Busy then s.dDatalen else v.toNat } := by
  unfold State.writeDDatalen
  split <;> rfl

@[simp] theorem State.resetNow_state : s.resetNow.state = .idle := rfl
@[simp] theorem State.resetNow_op : s.resetNow.op = 0 := rfl

end

/-- `s` with every field that an event of the world outside, a refusal or a datapath row writes taken from `t`. -/
def State.quietWrites (s t : State) : State :=
  { s with
    cmdRej := t.cmdRej, dWidth := t.dWidth, dHeight := t.dHeight, dDatalen := t.dDatalen, dbuf := t.dbuf
    fmtSel := t.fmtSel, color0 := t.color0, color1 := t.color1, indices := t.indices, e0 := t.e0, e1 := t.e1
    pal := t.pal, chOut := t.chOut, colOut := t.colOut, sin := t.sin, inbox := t.inbox }

/-- What no command makes: no field of the handshake but `cmd_rej`, no result, no output buffer and no phase changes. -/
structure QuietChange (s t : State) : Prop where
  frame : t = s.quietWrites t
  wf : s.dbuf.wf = true → t.dbuf.wf = true

/-- The second move of a step: none, reset, or what a command does from where it runs or is accepted. -/
inductive CoreMove (s : State) : State → Prop where
  | rest : CoreMove s s
  | reset : CoreMove s s.resetNow
  | unsupported (fourCc : Word) (hc : s.ReadChecking) : CoreMove s (s.raiseUnsupported fourCc)
  | readAccepted {t : State} (hn : s.state ≠ .busy) (ht : resumeRead s.acceptRead = .next t) : CoreMove s t
  | readGoesOn {t : State} (hr : s.ReadRunning) (ht : resumeRead s = .next t) : CoreMove s t
  | decodeAccepted {t : State} (hn : s.state ≠ .busy) (o : DecodeOutcome s.acceptDecode t) : CoreMove s t
  | decodeGoesOn {t : State} (hd : s.DecodeRunning) (o : DecodeOutcome s t) : CoreMove s t

/-- A quiet change, and then a move of the core. -/
def State.MovesTo (s t : State) : Prop := ∃ u, QuietChange s u ∧ CoreMove u t

theorem QuietChange.moves {s t : State} (q : QuietChange s t) : s.MovesTo t := ⟨t, q, .rest⟩

/-- The core by itself makes a move of a running command. -/
theorem coreStep_move {s t : State} (h : coreStep s = .next t) : CoreMove s t := by
  by_cases hr : s.ReadRunning
  · exact .readGoesOn hr (coreStep_of_readRunning hr ▸ h)
  · rcases coreStep_outcome h with rfl | ⟨hr', -⟩ | ⟨hd, o⟩
    · exact .rest
    · exact absurd hr' hr
    · exact .decodeGoesOn hd o

/-- A command word or a datapath row, its event taken away. -/
theorem exec_moves {i : Instr} {s t : State} {es : List Event} (h : exec i { s with inbox := es } = .next t) :
    s.MovesTo t := by
  have q : QuietChange s { s with inbox := es } := ⟨rfl, id⟩
  rcases exec_outcome h with ⟨rfl, -⟩ | ⟨-, ⟨-, rfl⟩ | ⟨hn, o⟩⟩ | ⟨⟨_, fourCc, -, rfl⟩, hc⟩ |
    ⟨-, -, rfl | rfl | ⟨_, rfl⟩ | ⟨_, rfl⟩ | ⟨_, rfl⟩ | ⟨_, _, _, _, rfl⟩⟩
  case inl =>
    rcases execRead_cases h with ⟨-, rfl⟩ | ⟨hn, ht⟩
    · exact QuietChange.moves ⟨rfl, id⟩
    · exact ⟨_, q, .readAccepted hn ht⟩
  case inr.inl.inr => exact ⟨_, q, .decodeAccepted hn o⟩
  case inr.inr.inl => exact ⟨_, q, .unsupported fourCc hc⟩
  all_goals exact QuietChange.moves ⟨rfl, id⟩

/-- Every step is a quiet change and then a move of the core. -/
theorem step_moves {s t : State} (h : step s = .next t) : s.MovesTo t := by
  rcases step_cases h with ⟨-, hc⟩ | ⟨e, es, -, ⟨-, hc⟩ | ⟨i, -, hi⟩ | ⟨v, -, rfl⟩ | ⟨v, -, rfl⟩ | ⟨v, -, rfl⟩ |
    ⟨-, rfl⟩ | ⟨a, b, -, -, -, rfl⟩ | ⟨i, -, rfl⟩ | ⟨items, -, -, rfl⟩ | ⟨-, rfl⟩⟩
  · exact ⟨s, ⟨rfl, id⟩, coreStep_move hc⟩
  · exact ⟨{ s with inbox := es }, ⟨rfl, id⟩, coreStep_move hc⟩
  · exact exec_moves hi
  · rw [State.writeDWidth_eq]
    exact QuietChange.moves ⟨rfl, id⟩
  · rw [State.writeDHeight_eq]
    exact QuietChange.moves ⟨rfl, id⟩
  · rw [State.writeDDatalen_eq]
    exact QuietChange.moves ⟨rfl, id⟩
  · exact QuietChange.moves ⟨rfl, id⟩
  · exact QuietChange.moves ⟨rfl, Memory.wf_write a b⟩
  · exact QuietChange.moves ⟨rfl, id⟩
  · exact QuietChange.moves ⟨rfl, id⟩
  · exact ⟨{ s with inbox := es }, ⟨rfl, id⟩, .reset⟩

end Sys2Proof.Machine
end

section
/-! PROOF. Every step keeps the buffers in canonical form (R36 to R38). -/

namespace Sys2Proof.Machine

theorem State.BuffersCanonical.quiet {s t : State} (h : s.BuffersCanonical) (q : QuietChange s t) :
    t.BuffersCanonical := by
  obtain ⟨hd, hp, hr⟩ := h
  refine ⟨q.wf hd, ?_, ?_⟩ <;> rw [q.frame]
  · exact hp
  · exact hr

theorem State.BuffersCanonical.pbuf_wf {s : State} (h : s.BuffersCanonical) : s.pbuf.wf = true := h.2.1

theorem State.BuffersCanonical.acceptRead {s : State} (h : s.BuffersCanonical) : s.acceptRead.BuffersCanonical := by
  obtain ⟨hd, -, hr⟩ := h
  exact ⟨hd, rfl, hr⟩

theorem State.BuffersCanonical.acceptDecode {s : State} (h : s.BuffersCanonical) :
    s.acceptDecode.BuffersCanonical := by
  obtain ⟨hd, hp, -⟩ := h
  exact ⟨hd, hp, rfl⟩

/-- An error empties the buffer of the command it ends and leaves the others. -/
theorem State.BuffersCanonical.raise {s : State} (h : s.BuffersCanonical) (c : Cause) (x f : Nat) :
    (s.raise c x f).BuffersCanonical := by
  obtain ⟨hd, hp, hr⟩ := h
  refine ⟨hd, ?_, ?_⟩
  · rw [State.raise_pbuf]
    split
    · rfl
    · exact hp
  · rw [State.raise_rbuf]
    split
    · rfl
    · exact hr

theorem State.BuffersCanonical.ofReadOutcome {s t : State} (h : s.BuffersCanonical) (o : ReadOutcome s t) :
    t.BuffersCanonical := by
  obtain ⟨hd, hp, hr⟩ := h
  have fd : t.dbuf = s.dbuf := by rw [o.frame]; rfl
  have fr : t.rbuf = s.rbuf := by rw [o.frame]; rfl
  exact ⟨fd ▸ hd, o.wf hp, fr ▸ hr⟩

theorem State.BuffersCanonical.ofDecodeOutcome {s t : State} (h : s.BuffersCanonical) (o : DecodeOutcome s t) :
    t.BuffersCanonical := by
  obtain ⟨hd, hp, hr⟩ := h
  have fd : t.dbuf = s.dbuf := by rw [o.frame]; rfl
  have fp : t.pbuf = s.pbuf := by rw [o.frame]; rfl
  refine ⟨fd ▸ hd, fp ▸ hp, ?_⟩
  rcases o.result with ⟨-, er, -⟩ | ⟨-, -, -, er⟩
  · rw [er]; rfl
  · rw [er]; exact (s.writeBlocks_spec _ _ hr).1

theorem State.BuffersCanonical.move {s t : State} (h : s.BuffersCanonical) (m : CoreMove s t) :
    t.BuffersCanonical := by
  cases m with
  | rest => exact h
  | reset => exact ⟨rfl, rfl, rfl⟩
  | unsupported fourCc _ => exact h.raise _ _ _
  | readAccepted _ ht => exact h.acceptRead.ofReadOutcome (resumeRead_outcome rfl ht)
  | readGoesOn hr ht => exact h.ofReadOutcome (resumeRead_outcome hr.2 ht)
  | decodeAccepted _ o => exact h.acceptDecode.ofDecodeOutcome o
  | decodeGoesOn _ o => exact h.ofDecodeOutcome o

/-- Settles O55: a buffer is only ever written byte by byte, emptied, or left alone. -/
theorem stepKeepsBuffersCanonical : Obligations.StepKeepsBuffersCanonical := by
  intro s t h hstep
  obtain ⟨u, q, m⟩ := step_moves hstep
  exact (h.quiet q).move m

end Sys2Proof.Machine
end

section
/-! PROOF. Every step keeps the handshake legal (R22 to R32, R233, R240): the op field, the error registers and the results,
one after another. -/

namespace Sys2Proof.Machine

/-! ### The op field -/

theorem State.OpLegal.quiet {s t : State} (h : s.OpLegal) (q : QuietChange s t) : t.OpLegal := by
  rw [q.frame]
  exact h

/-- Once a command has been accepted, the op field names it and the core is not idle. -/
theorem State.opLegal_of_command {s : State} (hop : s.op = 1 ∨ s.op = 2) (hs : s.state ≠ .idle) : s.OpLegal := by
  refine ⟨?_, fun h => absurd h hs, fun h => ?_⟩ <;> rcases hop with hop | hop
  · simp [hop]
  · simp [hop]
  · simp [hop] at h
  · simp [hop] at h

theorem ReadOutcome.not_idle {s t : State} (o : ReadOutcome s t) (hb : s.state = .busy) : t.state ≠ .idle := by
  rcases o.result with ⟨hs, -⟩ | ⟨hs, -⟩ | ⟨hs, -⟩ <;> simp [hs, hb]

theorem DecodeOutcome.not_idle {s t : State} (o : DecodeOutcome s t) : t.state ≠ .idle := by
  rcases o.result with ⟨hs, -⟩ | ⟨hs, -⟩ <;> simp [hs]

theorem State.OpLegal.move {s t : State} (h : s.OpLegal) (m : CoreMove s t) : t.OpLegal := by
  cases m with
  | rest => exact h
  | reset => exact ⟨by simp, fun _ => rfl, fun _ => rfl⟩
  | unsupported fourCc hc => exact State.opLegal_of_command (.inl hc.1.2) (by simp [State.raiseUnsupported])
  | readAccepted _ ht =>
    have o := resumeRead_outcome rfl ht
    exact State.opLegal_of_command (.inl o.op) (o.not_idle rfl)
  | readGoesOn hr ht =>
    have o := resumeRead_outcome hr.2 ht
    exact State.opLegal_of_command (.inl (o.op.trans hr.2)) (o.not_idle hr.1)
  | decodeAccepted _ o => exact State.opLegal_of_command (.inr o.op) o.not_idle
  | decodeGoesOn hd o => exact State.opLegal_of_command (.inr (o.op.trans hd.2)) o.not_idle

/-! ### The error registers -/

theorem State.ErrorsLegal.quiet {s t : State} (h : s.ErrorsLegal) (q : QuietChange s t) : t.ErrorsLegal := by
  rw [q.frame]
  exact h

theorem State.errorsLegal_of_failed {s : State} {c : Cause} (hs : s.state = .doneErr) (hc : c ∈ causesOf s.op)
    (hk : s.errKind = c.kind ∧ s.errCode = c.code) : s.ErrorsLegal := by
  unfold State.ErrorsLegal
  rw [if_pos hs]
  exact ⟨c, hc, hk⟩

theorem State.errorsLegal_of_noErrors {s : State} (hs : s.state ≠ .doneErr) (h : s.NoErrors) : s.ErrorsLegal := by
  unfold State.ErrorsLegal
  rw [if_neg hs]
  exact h

theorem State.ErrorsLegal.noErrors {s : State} (h : s.ErrorsLegal) (hs : s.state ≠ .doneErr) : s.NoErrors := by
  unfold State.ErrorsLegal at h
  rwa [if_neg hs] at h

theorem State.NoErrors.same {s t : State} (h : s.NoErrors) (k : s.SameErrors t) : t.NoErrors := by
  obtain ⟨h1, h2, h3, h4⟩ := h
  obtain ⟨k1, k2, k3, k4⟩ := k
  exact ⟨k1.trans h1, k2.trans h2, k3.trans h3, k4.trans h4⟩

theorem State.ErrorsLegal.ofReadOutcome {s t : State} (h : s.ErrorsLegal) (hr : s.ReadRunning) (o : ReadOutcome s t) :
    t.ErrorsLegal := by
  obtain ⟨hb, hop⟩ := hr
  rcases o.result with ⟨hs, he, -⟩ | ⟨hs, -, -, -, -, c, hc, hk⟩ | ⟨hs, -, he, -⟩
  · exact State.errorsLegal_of_noErrors (by simp [hs, hb]) ((h.noErrors (by simp [hb])).same he)
  · exact State.errorsLegal_of_failed hs (by rw [o.op, hop]; exact hc) hk
  · exact State.errorsLegal_of_noErrors (by simp [hs]) he

theorem State.errorsLegal_of_decodeOutcome {s t : State} (hop : s.op = 2) (o : DecodeOutcome s t) : t.ErrorsLegal := by
  rcases o.result with ⟨hs, -, -, -, c, hc, hk⟩ | ⟨hs, he, -⟩
  · exact State.errorsLegal_of_failed hs (by rw [o.op, hop]; exact hc) hk
  · exact State.errorsLegal_of_noErrors (by simp [hs]) he

theorem State.ErrorsLegal.move {s t : State} (h : s.ErrorsLegal) (m : CoreMove s t) : t.ErrorsLegal := by
  cases m with
  | rest => exact h
  | reset => exact State.errorsLegal_of_noErrors (by simp) ⟨rfl, rfl, rfl, rfl⟩
  | unsupported fourCc hc =>
    have hop : (s.raiseUnsupported fourCc).op = 1 := hc.1.2
    exact State.errorsLegal_of_failed (c := .unsupportedFormat) rfl (by rw [hop]; decide) ⟨rfl, rfl⟩
  | readAccepted _ ht =>
    have ha : s.acceptRead.ErrorsLegal := State.errorsLegal_of_noErrors (by simp) ⟨rfl, rfl, rfl, rfl⟩
    exact ha.ofReadOutcome ⟨rfl, rfl⟩ (resumeRead_outcome rfl ht)
  | readGoesOn hr ht => exact h.ofReadOutcome hr (resumeRead_outcome hr.2 ht)
  | decodeAccepted _ o => exact State.errorsLegal_of_decodeOutcome rfl o
  | decodeGoesOn hd o => exact State.errorsLegal_of_decodeOutcome hd.2 o

/-! ### The results -/

theorem State.ResultsLegal.quiet {s t : State} (h : s.ResultsLegal) (q : QuietChange s t) : t.ResultsLegal := by
  rw [q.frame]
  exact h

/-- The results of a `READ`, which says nothing of `D_RASLEN`. -/
theorem State.resultsLegal_of_read {s : State} (hop : s.op = 1) (h : s.state ≠ .doneOk → s.NoTexture) :
    s.ResultsLegal := by
  refine ⟨fun hs => h hs.2, fun hs => ?_, fun hs => ?_⟩
  · simp [hop] at hs
  · simp [hop] at hs

/-- The results of a `DECODE`, which says nothing of the Texture. -/
theorem State.resultsLegal_of_decode {s : State} (hop : s.op = 2) (h : s.state ≠ .doneOk → s.dRaslen = 0) :
    s.ResultsLegal := by
  refine ⟨fun hs => ?_, fun hs => h hs.2, fun hs => ?_⟩
  · simp [hop] at hs
  · simp [hop] at hs

theorem State.ResultsLegal.noTexture {s : State} (h : s.ResultsLegal) (hr : s.ReadRunning) : s.NoTexture := by
  obtain ⟨hread, -, -⟩ := h
  exact hread ⟨hr.2, by simp [hr.1]⟩

theorem State.ResultsLegal.noRaster {s : State} (h : s.ResultsLegal) (hd : s.DecodeRunning) : s.dRaslen = 0 := by
  obtain ⟨-, hdecode, -⟩ := h
  exact hdecode ⟨hd.2, by simp [hd.1]⟩

theorem State.NoTexture.same {s t : State} (h : s.NoTexture) (k : s.SameTexture t) : t.NoTexture := by
  obtain ⟨h1, h2, h3, h4⟩ := h
  obtain ⟨k1, k2, k3, k4⟩ := k
  exact ⟨k1.trans h1, k2.trans h2, k3.trans h3, k4.trans h4⟩

/-- A running `READ` publishes a Texture by succeeding only (R145, R240). -/
theorem ReadOutcome.noTexture {s t : State} (o : ReadOutcome s t) (h : s.NoTexture) (hs : t.state ≠ .doneOk) :
    t.NoTexture := by
  rcases o.result with ⟨-, -, ht⟩ | ⟨-, -, -, ht, -⟩ | ⟨hok, -⟩
  · exact h.same ht
  · exact h.same ht
  · exact absurd hok hs

/-- A running `DECODE` publishes a raster by succeeding only (R189, R240). -/
theorem DecodeOutcome.noRaster {s t : State} (o : DecodeOutcome s t) (h : s.dRaslen = 0) (hs : t.state ≠ .doneOk) :
    t.dRaslen = 0 := by
  rcases o.result with ⟨-, -, hd, -⟩ | ⟨hok, -⟩
  · exact hd.trans h
  · exact absurd hok hs

theorem State.acceptRead_noTexture (s : State) : s.acceptRead.NoTexture := ⟨rfl, rfl, rfl, rfl⟩

theorem State.ResultsLegal.move {s t : State} (h : s.ResultsLegal) (m : CoreMove s t) : t.ResultsLegal := by
  cases m with
  | rest => exact h
  | reset => exact ⟨fun _ => ⟨rfl, rfl, rfl, rfl⟩, fun _ => rfl, fun _ => ⟨⟨rfl, rfl, rfl, rfl⟩, rfl, rfl⟩⟩
  | unsupported fourCc hc => exact State.resultsLegal_of_read hc.1.2 fun _ => h.noTexture hc.1
  | readAccepted _ ht =>
    have o := resumeRead_outcome rfl ht
    exact State.resultsLegal_of_read o.op (o.noTexture s.acceptRead_noTexture)
  | readGoesOn hr ht =>
    have o := resumeRead_outcome hr.2 ht
    exact State.resultsLegal_of_read (o.op.trans hr.2) (o.noTexture (h.noTexture hr))
  | decodeAccepted _ o => exact State.resultsLegal_of_decode o.op (o.noRaster rfl)
  | decodeGoesOn hd o => exact State.resultsLegal_of_decode (o.op.trans hd.2) (o.noRaster (h.noRaster hd))

/-- Settles O56: each of the handshake's three parts is kept by itself. -/
theorem stepKeepsTheHandshake : Obligations.StepKeepsTheHandshake := by
  rintro s t ⟨hop, herr, hres⟩ hstep
  obtain ⟨u, q, m⟩ := step_moves hstep
  exact ⟨(hop.quiet q).move m, (herr.quiet q).move m, (hres.quiet q).move m⟩

end Sys2Proof.Machine
end

section
/-! PROOF. Every step keeps the phase legal, the Texture whole (R28, R33, R37, R41, R152) and the raster whole (R32, R38,
R41). A legal phase says that only a `READ` rests; that is why no move of a running `DECODE` and no row at the check of a key
is to be looked at. -/

namespace Sys2Proof.Machine

/-! ### The phase -/

theorem State.PhaseLegal.quiet {s t : State} (h : s.PhaseLegal) (q : QuietChange s t) : t.PhaseLegal := by
  rw [q.frame]
  exact h

theorem State.phaseLegal_of_busy {s : State} (hs : s.state = .busy) (h : s.ReadProgress) : s.PhaseLegal := by
  unfold State.PhaseLegal
  rw [hs]
  exact h

theorem State.phaseLegal_of_doneOk {s : State} (hs : s.state = .doneOk) (h : s.phase = .pDone) : s.PhaseLegal := by
  unfold State.PhaseLegal
  rw [hs]
  exact h

theorem State.phaseLegal_of_doneErr {s : State} (hs : s.state = .doneErr) (h : s.phase = .pDone) : s.PhaseLegal := by
  unfold State.PhaseLegal
  rw [hs]
  exact h

theorem State.PhaseLegal.readProgress {s : State} (h : s.PhaseLegal) (hs : s.state = .busy) : s.ReadProgress := by
  unfold State.PhaseLegal at h
  rwa [hs] at h

theorem State.PhaseLegal.not_decodeRunning {s : State} (h : s.PhaseLegal) : ¬ s.DecodeRunning := by
  rintro ⟨hb, hop⟩
  obtain ⟨hop', -⟩ := h.readProgress hb
  simp [hop] at hop'

theorem State.PhaseLegal.not_readChecking {s : State} (h : s.PhaseLegal) : ¬ s.ReadChecking := by
  rintro ⟨⟨hb, -⟩, hp⟩
  obtain ⟨-, ⟨hp', -⟩ | ⟨hp', -⟩ | ⟨hp', -⟩⟩ := h.readProgress hb <;> simp [hp] at hp'

/-- An accepted `READ` stands before its first byte. -/
theorem State.acceptRead_readProgress (s : State) : s.acceptRead.ReadProgress :=
  ⟨rfl, .inl ⟨rfl, Nat.zero_lt_succ 3, rfl, rfl⟩⟩

/-- A running `READ` waits where it can rest, or has ended. -/
theorem State.ReadProgress.phaseLegal_of_resumeRead {s t : State} (h : s.ReadProgress) (hb : s.state = .busy)
    (hw : s.pbuf.wf = true) (ht : resumeRead s = .next t) : t.PhaseLegal := by
  have ha := resumeRead_arrives hb h hw ht
  rcases (resumeRead_outcome h.1 ht).result with ⟨hs, -⟩ | ⟨hs, hp, -⟩ | ⟨hs, hp, -⟩
  · rcases ha with ⟨hs', hr⟩ | hs' | ⟨hs', -⟩
    · exact State.phaseLegal_of_busy hs' hr
    · simp [hs, hb] at hs'
    · simp [hs, hb] at hs'
  · exact State.phaseLegal_of_doneErr hs hp
  · exact State.phaseLegal_of_doneOk hs hp

theorem DecodeOutcome.phaseLegal {s t : State} (o : DecodeOutcome s t) : t.PhaseLegal := by
  rcases o.result with ⟨hs, -⟩ | ⟨hs, -⟩
  · exact State.phaseLegal_of_doneErr hs o.phase
  · exact State.phaseLegal_of_doneOk hs o.phase

theorem State.PhaseLegal.move {s t : State} (h : s.PhaseLegal) (hw : s.pbuf.wf = true) (m : CoreMove s t) :
    t.PhaseLegal := by
  cases m with
  | rest => exact h
  | reset => exact rfl
  | unsupported _ hc => exact absurd hc h.not_readChecking
  | readAccepted _ ht => exact s.acceptRead_readProgress.phaseLegal_of_resumeRead rfl rfl ht
  | readGoesOn hr ht => exact (h.readProgress hr.1).phaseLegal_of_resumeRead hr.1 hw ht
  | decodeAccepted _ o => exact o.phaseLegal
  | decodeGoesOn _ o => exact o.phaseLegal

/-! ### The Texture -/

theorem State.TextureWhole.quiet {s t : State} (h : s.TextureWhole) (q : QuietChange s t) : t.TextureWhole := by
  rw [q.frame]
  exact h

/-- Four zero registers describe a whole Texture of no bytes. -/
theorem State.NoTexture.textureWhole {s : State} (h : s.NoTexture) (hs : s.state ≠ .doneOk) : s.TextureWhole := by
  obtain ⟨hw, -, -, hl⟩ := h
  refine ⟨?_, fun _ => by simp [hw, hl], fun hok => absurd hok.2 hs⟩
  rw [hl]
  exact Memory.filledTo_zero _

/-- A running `READ` leaves no Texture or, where it succeeds, a whole one. -/
theorem State.ReadProgress.textureWhole_of_resumeRead {s t : State} (h : s.ReadProgress) (hb : s.state = .busy)
    (hw : s.pbuf.wf = true) (hn : s.NoTexture) (ht : resumeRead s = .next t) : t.TextureWhole := by
  have o := resumeRead_outcome h.1 ht
  rcases resumeRead_arrives hb h hw ht with ⟨hs, -⟩ | hs | ⟨-, hfill, hlen, hspos⟩
  · exact (o.noTexture hn (by simp [hs])).textureWhole (by simp [hs])
  · exact (o.noTexture hn (by simp [hs])).textureWhole (by simp [hs])
  · exact ⟨hfill, hlen, fun _ => hspos⟩

/-- A `DECODE` leaves the Texture alone. -/
theorem State.TextureWhole.ofDecodeOutcome {s t : State} (h : s.TextureWhole) (hop : s.op = 2)
    (o : DecodeOutcome s t) : t.TextureWhole := by
  obtain ⟨hfill, hlen, -⟩ := h
  have h2 : t.op = 2 := o.op.trans hop
  refine ⟨?_, ?_, fun hok => by simp [h2] at hok⟩ <;> rw [o.frame]
  · exact hfill
  · exact hlen

/-- Acceptance of a `DECODE` leaves the Texture alone. -/
theorem State.TextureWhole.acceptDecode {s : State} (h : s.TextureWhole) : s.acceptDecode.TextureWhole := by
  obtain ⟨hfill, hlen, -⟩ := h
  exact ⟨hfill, hlen, fun hok => by simp at hok⟩

theorem State.TextureWhole.move {s t : State} (h : s.TextureWhole) (hp : s.PhaseLegal) (hres : s.ResultsLegal)
    (hw : s.pbuf.wf = true) (m : CoreMove s t) : t.TextureWhole := by
  cases m with
  | rest => exact h
  | reset => exact State.NoTexture.textureWhole ⟨rfl, rfl, rfl, rfl⟩ (by simp)
  | unsupported _ hc => exact absurd hc hp.not_readChecking
  | readAccepted _ ht =>
    exact s.acceptRead_readProgress.textureWhole_of_resumeRead rfl rfl s.acceptRead_noTexture ht
  | readGoesOn hr ht => exact (hp.readProgress hr.1).textureWhole_of_resumeRead hr.1 hw (hres.noTexture hr) ht
  | decodeAccepted _ o => exact h.acceptDecode.ofDecodeOutcome rfl o
  | decodeGoesOn hd _ => exact absurd hd hp.not_decodeRunning

/-- Settles O57: what a `READ` that rests stands on is what the rest of it needs to leave a whole Texture. -/
theorem stepKeepsTheTextureWhole : Obligations.StepKeepsTheTextureWhole := by
  rintro s t ⟨hp, hres, htex, hbuf⟩ hstep
  obtain ⟨u, q, m⟩ := step_moves hstep
  have hp := hp.quiet q
  have hres := hres.quiet q
  have hbuf := hbuf.quiet q
  exact ⟨hp.move hbuf.pbuf_wf m, hres.move m, (htex.quiet q).move hp hres hbuf.pbuf_wf m, hbuf.move m⟩

/-! ### The raster -/

theorem State.RasterWhole.quiet {s t : State} (h : s.RasterWhole) (q : QuietChange s t) : t.RasterWhole := by
  rw [q.frame]
  exact h

/-- No bytes make a whole raster as long as no `DECODE` has succeeded. -/
theorem State.rasterWhole_of_zero {s : State} (hl : s.dRaslen = 0) (hs : s.state ≠ .doneOk) : s.RasterWhole := by
  refine ⟨?_, fun hok => absurd hok.2 hs⟩
  rw [hl]
  exact Memory.filledTo_zero _

/-- The walk over the whole grid writes every byte of the raster (R184). -/
theorem State.writeBlocks_filledTo {s : State} (hb : s.bidx = 0) {m : Memory} (hm : m.wf = true) :
    (s.writeBlocks s.blocksLeft m).FilledTo (rasterBytes s.argWidth s.argHeight) := by
  intro a ha
  obtain ⟨R, C, j, hR, hC, hj, rfl⟩ := exists_pixelAddr ha
  have hin : blockOf s.argWidth R C ∈ s.blocksLeft := by
    simp [State.blocksLeft, hb, blockOf_lt hR hC]
  obtain ⟨-, -, hread⟩ := s.writeBlocks_spec s.blocksLeft m hm
  rw [hread R C j hR hC hj, if_pos hin]
  rfl

/-- An accepted `DECODE` leaves no raster or, where it succeeds, a whole one. -/
theorem State.rasterWhole_of_acceptDecode {s t : State} (o : DecodeOutcome s.acceptDecode t) : t.RasterWhole := by
  obtain ⟨aw, ah, -⟩ := o.args
  rcases o.result with ⟨hs, -, hl, -⟩ | ⟨-, -, hl, hr⟩
  · exact State.rasterWhole_of_zero hl (by simp [hs])
  · refine ⟨?_, fun _ => ?_⟩
    · rw [hl, hr]
      exact State.writeBlocks_filledTo rfl rfl
    · rw [hl, aw, ah]
      rfl

/-- A `READ` leaves the raster alone. -/
theorem State.RasterWhole.ofReadOutcome {s t : State} (h : s.RasterWhole) (hop : s.op = 1) (o : ReadOutcome s t) :
    t.RasterWhole := by
  obtain ⟨hfill, -⟩ := h
  have h1 : t.op = 1 := o.op.trans hop
  refine ⟨?_, fun hok => by simp [h1] at hok⟩
  rw [o.frame]
  exact hfill

/-- Acceptance of a `READ` leaves the raster alone. -/
theorem State.RasterWhole.acceptRead {s : State} (h : s.RasterWhole) : s.acceptRead.RasterWhole := by
  obtain ⟨hfill, -⟩ := h
  exact ⟨hfill, fun hok => by simp at hok⟩

theorem State.RasterWhole.move {s t : State} (h : s.RasterWhole) (hp : s.PhaseLegal) (m : CoreMove s t) :
    t.RasterWhole := by
  cases m with
  | rest => exact h
  | reset => exact State.rasterWhole_of_zero rfl (by simp)
  | unsupported _ hc => exact absurd hc hp.not_readChecking
  | readAccepted _ ht => exact h.acceptRead.ofReadOutcome rfl (resumeRead_outcome rfl ht)
  | readGoesOn hr ht => exact h.ofReadOutcome hr.2 (resumeRead_outcome hr.2 ht)
  | decodeAccepted _ o => exact State.rasterWhole_of_acceptDecode o
  | decodeGoesOn hd _ => exact absurd hd hp.not_decodeRunning

/-- Settles O58: a `DECODE` runs to its end from where it is accepted, so that its walk writes the whole raster. -/
theorem stepKeepsTheRasterWhole : Obligations.StepKeepsTheRasterWhole := by
  rintro s t ⟨hp, hras, hbuf⟩ hstep
  obtain ⟨u, q, m⟩ := step_moves hstep
  have hp := hp.quiet q
  have hbuf := hbuf.quiet q
  exact ⟨hp.move hbuf.pbuf_wf m, (hras.quiet q).move hp m, hbuf.move m⟩

end Sys2Proof.Machine
end

section
/-! PROOF. What commands never write (R30, R31, R43, R72): the argument registers, `DBUF`, the events, the parameters and the
free values' counter; and so, over a step, what the host alone writes. -/

namespace Sys2Proof.Machine

/-- What no command writes. -/
def State.arguments (s : State) : Word × Word × Nat × Memory × List Event × Params × Nat :=
  (s.dWidth, s.dHeight, s.dDatalen, s.dbuf, s.inbox, s.params, s.epoch)

theorem State.arguments_eq_iff {s t : State} : t.arguments = s.arguments ↔
    t.dWidth = s.dWidth ∧ t.dHeight = s.dHeight ∧ t.dDatalen = s.dDatalen ∧ t.dbuf = s.dbuf ∧ t.inbox = s.inbox ∧
      t.params = s.params ∧ t.epoch = s.epoch := by
  simp [State.arguments]

theorem ReadOutcome.arguments {s t : State} (o : ReadOutcome s t) : t.arguments = s.arguments := by
  rw [o.frame]
  rfl

theorem DecodeOutcome.arguments {s t : State} (o : DecodeOutcome s t) : t.arguments = s.arguments := by
  rw [o.frame]
  rfl

theorem exec_arguments {i : Instr} {s t : State} (h : exec i s = .next t) : t.arguments = s.arguments := by
  rcases exec_outcome h with ⟨-, ⟨-, rfl⟩ | ⟨-, o⟩⟩ | ⟨-, ⟨-, rfl⟩ | ⟨-, o⟩⟩ | ⟨⟨_, _, -, rfl⟩, -⟩ |
    ⟨-, -, rfl | rfl | ⟨_, rfl⟩ | ⟨_, rfl⟩ | ⟨_, rfl⟩ | ⟨_, _, _, _, rfl⟩⟩
  case inl.inr => exact o.arguments
  case inr.inl.inr => exact o.arguments
  all_goals rfl

theorem coreStep_arguments {s t : State} (h : coreStep s = .next t) : t.arguments = s.arguments := by
  rcases coreStep_outcome h with rfl | ⟨-, o⟩ | ⟨-, o⟩
  · rfl
  · exact o.arguments
  · exact o.arguments

/-- Settles O47: each thing an instruction can do leaves them alone. -/
theorem noInstructionWritesTheArguments : Obligations.NoInstructionWritesTheArguments :=
  fun _ _ _ h => State.arguments_eq_iff.mp (exec_arguments h)

/-! ### The host's writes of the argument registers -/

/-- Settles O26: a step that takes such a write does just that write. -/
theorem hostRegisterWrites : Obligations.HostRegisterWrites :=
  fun _ _ => ⟨fun _ h => step_of_cons h, fun _ h => step_of_cons h, fun _ h => step_of_cons h,
    fun _ _ h => step_of_cons h⟩

/-- How an argument register may come to differ from `s` to `t`: by reset, or by a host write of it outside `BUSY`. -/
def State.ArgumentsFollowHost (s t : State) : Prop :=
  t.params = s.params ∧
  (t.dWidth ≠ s.dWidth → s.ResetNext ∨ (s.state ≠ .busy ∧ ∃ v es, s.inbox = .write (.dWidth v) :: es)) ∧
  (t.dHeight ≠ s.dHeight → s.ResetNext ∨ (s.state ≠ .busy ∧ ∃ v es, s.inbox = .write (.dHeight v) :: es)) ∧
  (t.dDatalen ≠ s.dDatalen → s.ResetNext ∨ (s.state ≠ .busy ∧ ∃ v es, s.inbox = .write (.dDatalen v) :: es))

theorem State.argumentsFollowHost_of_eq {s t : State} (hp : t.params = s.params) (hw : t.dWidth = s.dWidth)
    (hh : t.dHeight = s.dHeight) (hd : t.dDatalen = s.dDatalen) : s.ArgumentsFollowHost t :=
  ⟨hp, fun n => absurd hw n, fun n => absurd hh n, fun n => absurd hd n⟩

/-- A command whose event was taken away first. -/
theorem State.argumentsFollowHost_of_arguments {s t : State} {es : List Event}
    (h : t.arguments = ({ s with inbox := es } : State).arguments) : s.ArgumentsFollowHost t := by
  obtain ⟨hw, hh, hd, -, -, hp, -⟩ := State.arguments_eq_iff.mp h
  exact State.argumentsFollowHost_of_eq hp hw hh hd

/-- Settles O49: of all a step can do, only the three writes and reset touch an argument register. -/
theorem argumentsChangeByHostWriteOnly : Obligations.ArgumentsChangeByHostWriteOnly := by
  intro s t h
  show s.ArgumentsFollowHost t
  rcases step_cases h with ⟨-, hc⟩ | ⟨e, es, hin, ⟨-, hc⟩ | ⟨i, -, hi⟩ | ⟨v, rfl, rfl⟩ | ⟨v, rfl, rfl⟩ | ⟨v, rfl, rfl⟩ |
    ⟨-, rfl⟩ | ⟨a, b, -, -, -, rfl⟩ | ⟨i, -, rfl⟩ | ⟨items, -, -, rfl⟩ | ⟨rfl, rfl⟩⟩
  · exact State.argumentsFollowHost_of_arguments (es := s.inbox) (coreStep_arguments hc)
  · exact State.argumentsFollowHost_of_arguments (coreStep_arguments hc)
  · exact State.argumentsFollowHost_of_arguments (exec_arguments hi)
  · rw [State.writeDWidth_eq]
    exact ⟨rfl, fun n => .inr ⟨fun hb => n (if_pos hb), v, es, hin⟩, fun n => absurd rfl n, fun n => absurd rfl n⟩
  · rw [State.writeDHeight_eq]
    exact ⟨rfl, fun n => absurd rfl n, fun n => .inr ⟨fun hb => n (if_pos hb), v, es, hin⟩, fun n => absurd rfl n⟩
  · rw [State.writeDDatalen_eq]
    exact ⟨rfl, fun n => absurd rfl n, fun n => absurd rfl n, fun n => .inr ⟨fun hb => n (if_pos hb), v, es, hin⟩⟩
  · exact State.argumentsFollowHost_of_eq rfl rfl rfl rfl
  · exact State.argumentsFollowHost_of_eq rfl rfl rfl rfl
  · exact State.argumentsFollowHost_of_eq rfl rfl rfl rfl
  · exact State.argumentsFollowHost_of_eq rfl rfl rfl rfl
  · exact ⟨rfl, fun _ => .inl ⟨es, hin⟩, fun _ => .inl ⟨es, hin⟩, fun _ => .inl ⟨es, hin⟩⟩

/-! ### A byte of DBUF -/

theorem writeDbufEvent_of_valid {s : State} {a : Nat} (b : Byte) (hd : ¬ s.DecodeRunning)
    (hc : overCap s.params (a + 1) = false) :
    writeDbufEvent a b s = .next { s with dbuf := s.dbuf.write a b } := by
  unfold writeDbufEvent
  rw [if_neg hd, if_neg (by simp [hc])]

/-- Settles O28: the buffer's own law of reading after a write. -/
theorem hostWritesOneByteOfDbuf : Obligations.HostWritesOneByteOfDbuf := by
  intro s es a b hin hw hd hc
  refine ⟨{ s with inbox := es, dbuf := s.dbuf.write a b }, ?_, ?_, fun k hk => ?_, rfl⟩
  · exact (step_of_cons hin).trans (writeDbufEvent_of_valid (s := { s with inbox := es }) b hd hc)
  · exact (Memory.read_write s.dbuf a b a hw).trans (if_pos rfl)
  · exact (Memory.read_write s.dbuf a b k hw).trans (if_neg hk.symm)

end Sys2Proof.Machine
end

section
/-! PROOF. The stream (R35, R67, R76), the sticky bit and the fields of `STATUS` (R22), and the words a step runs (R21, R90,
R108). -/

namespace Sys2Proof.Machine

/-! ### The stream -/

theorem DecodeOutcome.sin {s t : State} (o : DecodeOutcome s t) : t.sin = s.sin := by rw [o.frame]; rfl

theorem exec_sin_of_ne_read {i : Instr} {s t : State} (hi : i ≠ .read) (h : exec i s = .next t) : t.sin = s.sin := by
  rcases exec_outcome h with ⟨rfl, -⟩ | ⟨-, ⟨-, rfl⟩ | ⟨-, o⟩⟩ | ⟨⟨_, _, -, rfl⟩, -⟩ |
    ⟨-, -, rfl | rfl | ⟨_, rfl⟩ | ⟨_, rfl⟩ | ⟨_, rfl⟩ | ⟨_, _, _, _, rfl⟩⟩
  case inl => exact absurd rfl hi
  case inr.inl.inr => exact o.sin
  all_goals rfl

theorem exec_pulls {i : Instr} {s t : State} (h : exec i s = .next t) : ∃ pulled, s.sin = pulled ++ t.sin := by
  by_cases hi : i = .read
  · subst hi
    rcases execRead_outcome h with ⟨-, rfl⟩ | ⟨-, o⟩
    · exact ⟨[], rfl⟩
    · exact o.pulls
  · exact ⟨[], (exec_sin_of_ne_read hi h).symm⟩

theorem coreStep_sin_of_not_readRunning {s t : State} (hn : ¬ s.ReadRunning) (h : coreStep s = .next t) :
    t.sin = s.sin := by
  rcases coreStep_outcome h with rfl | ⟨hr, -⟩ | ⟨-, o⟩
  · rfl
  · exact absurd hr hn
  · exact o.sin

theorem coreStep_pulls {s t : State} (h : coreStep s = .next t) : ∃ pulled, s.sin = pulled ++ t.sin := by
  by_cases hr : s.ReadRunning
  · rw [coreStep_of_readRunning hr] at h
    exact (resumeRead_outcome hr.2 h).pulls
  · exact ⟨[], (coreStep_sin_of_not_readRunning hr h).symm⟩

/-- Settles O48: for the instructions, and for the core by itself. -/
theorem onlyReadPullsTheStream : Obligations.OnlyReadPullsTheStream := fun _ _ =>
  ⟨fun _ h => ⟨fun hi => exec_sin_of_ne_read hi h, exec_pulls h⟩,
    fun h => ⟨fun hn => coreStep_sin_of_not_readRunning hn h, coreStep_pulls h⟩⟩

/-! ### The sticky bit -/

theorem coreStep_cmdRej {s t : State} (h : coreStep s = .next t) : t.cmdRej = s.cmdRej := by
  rcases coreStep_outcome h with rfl | ⟨-, o⟩ | ⟨-, o⟩
  · rfl
  · exact o.cmdRej
  · exact o.cmdRej

/-- An instruction clears the bit by the acceptance of a command only. -/
theorem exec_clears_cmdRej {i : Instr} {s t : State} (h : exec i s = .next t) (hs : s.cmdRej = true)
    (ht : t.cmdRej = false) : s.state ≠ .busy ∧ (i = .read ∨ i = .decode) := by
  have hne : t.cmdRej ≠ s.cmdRej := by simp [hs, ht]
  rcases exec_outcome h with ⟨rfl, ⟨-, rfl⟩ | ⟨hn, -⟩⟩ | ⟨rfl, ⟨-, rfl⟩ | ⟨hn, -⟩⟩ | ⟨⟨_, _, -, rfl⟩, -⟩ |
    ⟨-, -, rfl | rfl | ⟨_, rfl⟩ | ⟨_, rfl⟩ | ⟨_, rfl⟩ | ⟨_, _, _, _, rfl⟩⟩
  case inl.inr => exact ⟨hn, .inl rfl⟩
  case inr.inl.inr => exact ⟨hn, .inr rfl⟩
  case inl.inl | inr.inl.inl | inr.inr.inr.inr.inl => simp at ht
  all_goals exact absurd rfl hne

/-- Settles O51: of all a step can do, only an instruction and reset can clear the bit. -/
theorem cmdRejIsSticky : Obligations.CmdRejIsSticky := by
  intro s t h hs ht
  have hne : t.cmdRej ≠ s.cmdRej := by simp [hs, ht]
  rcases step_cases h with ⟨-, hc⟩ | ⟨e, es, hin, ⟨-, hc⟩ | ⟨i, hf, hi⟩ | ⟨v, -, rfl⟩ | ⟨v, -, rfl⟩ | ⟨v, -, rfl⟩ |
    ⟨-, rfl⟩ | ⟨a, b, -, -, -, rfl⟩ | ⟨i, -, rfl⟩ | ⟨items, -, -, rfl⟩ | ⟨rfl, rfl⟩⟩
  · exact absurd (coreStep_cmdRej hc) hne
  · exact absurd (coreStep_cmdRej hc) hne
  · obtain ⟨hn, hrd⟩ := exec_clears_cmdRej hi hs ht
    exact .inr ⟨hn, hrd.imp (fun e => ⟨_, e ▸ hf⟩) (fun e => ⟨_, e ▸ hf⟩)⟩
  · exact absurd (by rw [State.writeDWidth_eq]) hne
  · exact absurd (by rw [State.writeDHeight_eq]) hne
  · exact absurd (by rw [State.writeDDatalen_eq]) hne
  · exact absurd rfl hne
  · exact absurd rfl hne
  · exact absurd rfl hne
  · exact absurd rfl hne
  · exact .inl ⟨es, hin⟩

/-! ### STATUS -/

section
variable (s : State)

theorem State.statusWord_state : s.statusWord.extractLsb' 0 2 = s.state.code := extract_append_low _ _

/-- Above the state's code stand the op field, the sticky bit and zeros. -/
theorem State.statusWord_above (k len : Nat) : s.statusWord.extractLsb' (2 + k) len =
    ((0 : BitVec 27) ++ BitVec.ofBool s.cmdRej ++ s.op).extractLsb' k len := by
  unfold State.statusWord
  rw [BitVec.extractLsb'_append_eq_of_le (Nat.le_add_right 2 k), Nat.add_sub_cancel_left]

theorem State.statusWord_op : s.statusWord.extractLsb' 2 2 = s.op :=
  (s.statusWord_above 0 2).trans (extract_append_low _ _)

theorem State.statusWord_cmdRej : s.statusWord.getLsbD 4 = s.cmdRej := by
  unfold State.statusWord
  rw [BitVec.getLsbD_append, if_neg (by decide), BitVec.getLsbD_append, if_neg (by decide), BitVec.getLsbD_append,
    if_pos (by decide)]
  simp

theorem State.statusWord_zeros : s.statusWord.extractLsb' 5 27 = 0 := by
  rw [s.statusWord_above 3 27, BitVec.extractLsb'_append_eq_of_le (by decide)]
  exact extract_append_high _ _

end

/-- Settles O3: `STATUS` is its four fields side by side. -/
theorem statusReadsItsFields : Obligations.StatusReadsItsFields := by
  intro s
  refine ⟨s.statusWord, rfl, ?_, s.statusWord_op, s.statusWord_cmdRej, s.statusWord_zeros⟩
  rw [s.statusWord_state]
  cases s.state <;> rfl

/-! ### The word a step runs -/

theorem fetchWord_of_instr {s : State} {f : Format} {w : Nat} {i : Instr} (h : decodeWord s.params f w = .instr i) :
    fetchWord f w s = .run i s := by
  simp only [fetchWord, h]

/-- A step whose event brings a word that decodes. -/
theorem step_of_word {s : State} {e : Event} {es : List Event} {f : Format} {w : Nat} {i : Instr}
    (hin : s.inbox = e :: es) (he : fetchEvent e { s with inbox := es } = fetchWord f w { s with inbox := es })
    (hd : decodeWord s.params f w = .instr i) : step s = exec i { s with inbox := es } := by
  rw [step_of_cons hin, he, fetchWord_of_instr (s := { s with inbox := es }) hd]

/-- Settles O24: both ports bring their word to the decoder, and without a word the core goes on by itself. -/
theorem stepRunsTheDecodedWord : Obligations.StepRunsTheDecodedWord :=
  fun _ _ _ => ⟨fun _ hin hd => step_of_word hin rfl hd, fun _ _ hin hd => step_of_word hin rfl hd, step_of_nil,
    fun hin => step_of_cons hin, fun hb hop => coreStep_of_readRunning ⟨hb, hop⟩⟩

end Sys2Proof.Machine
end

section
/-! PROOF. The buffers (R67, R75, R186): a host read leaves every one alone, and the raster does not show the order in which
its blocks were written. -/

namespace Sys2Proof.Machine

/-- Settles O27: the step of either read is the one in which nothing but the event is taken away. -/
theorem hostReadsHaveNoEffect : Obligations.HostReadsHaveNoEffect :=
  fun _ _ => ⟨fun _ hin => step_of_cons hin, fun _ _ hin => step_of_cons hin⟩

/-- The raster shows which blocks were written and nothing of their order or repetition: a byte of it depends on the one
block its pixel lies in (R184), and the colours do not depend on the raster. -/
theorem State.writeBlocks_eq_of_mem_iff (s : State) {o o' : List Nat} {m : Memory} (hm : m.wf = true)
    (h : ∀ i, i ∈ o ↔ i ∈ o') : s.writeBlocks o m = s.writeBlocks o' m := by
  obtain ⟨hwf, hout, hin⟩ := s.writeBlocks_spec o m hm
  obtain ⟨hwf', hout', hin'⟩ := s.writeBlocks_spec o' m hm
  refine Memory.ext_read hwf hwf' fun a => ?_
  rcases Nat.lt_or_ge a (rasterBytes s.argWidth s.argHeight) with ha | ha
  · obtain ⟨R, C, j, hR, hC, hj, rfl⟩ := exists_pixelAddr ha
    simp only [hin R C j hR hC hj, hin' R C j hR hC hj, h]
  · rw [hout a ha, hout' a ha]

/-- Settles O42: a permutation has the same blocks. -/
theorem blockOrderIsUnobservable : Obligations.BlockOrderIsUnobservable :=
  fun s _ _ hm hp => s.writeBlocks_eq_of_mem_iff hm fun _ => hp.mem_iff

end Sys2Proof.Machine
end

section
/-! PROOF. Where a finite capacity stops a command (R70, R273, R274): each check against `CAP` as its command meets it. -/

namespace Sys2Proof.Machine

theorem overCap_of_lt {p : Params} {c n : Nat} (hc : p.cap = some c) (h : c < n) : overCap p n = true := by
  simp [overCap, hc, h]

theorem overCap_of_le {p : Params} {c n : Nat} (hc : p.cap = some c) (h : n ≤ c) : overCap p n = false := by
  simp [overCap, hc, h]

/-! ### DECODE -/

theorem execDecode_of_not_busy {s : State} (hb : s.state ≠ .busy) : execDecode s = decodeCheck s.acceptDecode :=
  if_neg hb

theorem decodeCheck_of_input_overCap {s : State} (h : overCap s.params s.argDatalen = true) :
    decodeCheck s = .refused (.overCapacity s.argDatalen) := if_pos h

/-- Behind both length checks `DECODE` is refused for its raster. -/
theorem decodeCheck_of_raster_overCap {s : State} (hin : overCap s.params s.argDatalen = false)
    (h8 : s.argDatalen % 8 = 0) (hg : gridBytes s.argWidth s.argHeight ≤ s.argDatalen)
    (h : overCap s.params (rasterBytes s.argWidth s.argHeight) = true) :
    decodeCheck s = .refused (.overCapacity (rasterBytes s.argWidth s.argHeight)) := by
  simp [decodeCheck, blockBytes, hin, h8, Nat.not_lt.mpr hg, h]

/-- Settles O54: the two checks, on the arguments as they are sampled at acceptance. -/
theorem capacityStopsDecode : Obligations.CapacityStopsDecode := by
  intro s c hb hc
  have hd : exec .decode s = decodeCheck s.acceptDecode := execDecode_of_not_busy hb
  rw [hd]
  refine ⟨fun hlt => ?_, fun hle h8 hg hlt => ?_⟩
  · exact decodeCheck_of_input_overCap (s := s.acceptDecode) (overCap_of_lt hc hlt)
  · exact decodeCheck_of_raster_overCap (s := s.acceptDecode) (overCap_of_le hc hle) h8 hg (overCap_of_lt hc hlt)

/-! ### READ -/

/-- A `READ` that needs bytes of `PBUF` has passed every check before the payload; how many it needs is said by the format
its key selects (R143, R144). -/
theorem readNeed_cases {p : Params} {S : List Byte} (h : 0 < readNeed p S) :
    128 ≤ S.length ∧ S.take 4 = magicBytes ∧ (hSize (headerOf S)).toNat = 124 ∧ (hPfSize (headerOf S)).toNat = 32 ∧
    ∃ fmt, keyFormat p (hPfFlags (headerOf S)) (hFourCc (headerOf S)) = some fmt ∧
      ((fmt = .bc1 ∧ readNeed p S = S.length - 128) ∨
       (fmt ≠ .bc1 ∧ readNeed p S = payloadLength (hWidth (headerOf S)) (hHeight (headerOf S)) fmt)) := by
  have hr : reachesPayload p S = true := by
    by_contra hr
    simp [readNeed, hr] at h
  simp only [readNeed, hr, if_true]
  simp only [reachesPayload, Bool.and_eq_true, decide_eq_true_eq, Option.isSome_iff_exists] at hr
  obtain ⟨⟨⟨⟨hl, hm⟩, h1⟩, h2⟩, fmt, hk⟩ := hr
  refine ⟨hl, hm, h1, h2, fmt, hk, ?_⟩
  rw [hk]
  cases fmt <;> simp

/-- An accepted `READ` that has obtained the first 128 bytes of `S`, with `B` ready behind the bytes of `S`. -/
def State.atHeaderCheck (s : State) (S : List Byte) (B : List StreamItem) : State :=
  { s.acceptRead with
    phase := .pCheck, spos := 128, magicBuf := magicBytes, hdrBuf := headerOf S, sin := itemsOf (S.drop 128) ++ B }

/-- The bytes of a stream that begins with the magic number: the magic number, the header and what follows (R97). -/
theorem eq_magic_header_rest {S : List Byte} (hm : S.take 4 = magicBytes) :
    S = magicBytes ++ (headerOf S ++ S.drop 128) := by
  have hrest : headerOf S ++ S.drop 128 = S.drop 4 := by
    simpa [headerOf] using List.take_append_drop 124 (S.drop 4)
  rw [hrest, ← hm, List.take_append_drop]

/-- Up to its checks of the header `READ` does not look at what follows the first 128 bytes (R131, R132). -/
theorem execRead_of_header {s : State} {S : List Byte} {B : List StreamItem} (hb : s.state ≠ .busy)
    (hs : s.sin = itemsOf S ++ B) (hl : 128 ≤ S.length) (hm : S.take 4 = magicBytes) :
    execRead s = readCheck (s.atHeaderCheck S B) := by
  have hlen : (headerOf S).length = 124 := headerOf_length (Nat.not_lt.mpr hl)
  have hsin : s.acceptRead.sin = itemsOf magicBytes ++ (itemsOf (headerOf S) ++ (itemsOf (S.drop 128) ++ B)) := by
    simp only [State.acceptRead_sin, ← List.append_assoc, ← itemsOf_append]
    rw [List.append_assoc magicBytes, ← eq_magic_header_rest hm, hs]
  calc execRead s
    _ = readMagic s.acceptRead := if_neg hb
    _ = readMagicCheck (s.acceptRead.storeMagic magicBytes _) := readMagic_of_complete hsin rfl
    _ = readHeader ((s.acceptRead.storeMagic magicBytes _).enter .pHeader) := if_neg (not_not.mpr rfl)
    _ = readCheck ((((s.acceptRead.storeMagic magicBytes _).enter .pHeader).storeHeader (headerOf S) _).enter .pCheck) :=
      readHeader_of_complete rfl hlen
    _ = readCheck (s.atHeaderCheck S B) := by
      simp [State.atHeaderCheck, State.storeHeader, State.storeMagic, State.pulled, State.enter, hlen, magicBytes]

theorem readCheck_of_sizes {s : State} (h1 : (hSize s.hdrBuf).toNat = 124) (h2 : (hPfSize s.hdrBuf).toNat = 32) :
    readCheck s = readFormat s := (if_neg (not_not.mpr h1)).trans (if_neg (not_not.mpr h2))

/-- The compressed payload is refused for the bytes that are ready, whatever follows them: nothing, `End` or `Fail`. -/
theorem readRest_of_overCap {s : State} {T : List Byte} {B : List StreamItem} (hs : s.sin = itemsOf T ++ B)
    (hB : ∀ b, B.head? ≠ some (.byte b)) (h : overCap s.params (s.payloadGot + T.length) = true) :
    readRest s = .refused (.overCapacity (s.payloadGot + T.length)) := by
  unfold readRest
  rw [hs]
  cases B with
  | nil => simp [streamRest_waiting, h]
  | cons i B =>
    cases i with
    | byte b => exact absurd rfl (hB b)
    | endOfStream => simp [streamRest_ended, h]
    | fail => simp [streamRest_failed, h]

theorem readExact_of_overCap {s : State} {fmt : TexFormat} {len : Nat} (h : overCap s.params len = true) :
    readExact fmt len s = .refused (.overCapacity len) := if_pos h

/-- Settles O60: a `READ` that needs bytes of `PBUF` comes to its payload, and each format's payload is refused there. -/
theorem capacityStopsRead : Obligations.CapacityStopsRead := by
  intro s c S B hb hc hs hB hlt
  have hover := overCap_of_lt hc hlt
  obtain ⟨hl, hm, h1, h2, fmt, hk, hneed⟩ := readNeed_cases (Nat.zero_lt_of_lt hlt)
  have hread : exec .read s = readPayload fmt (((s.atHeaderCheck S B).selectFormat fmt).enter .pPayload) :=
    calc exec .read s
      _ = readCheck (s.atHeaderCheck S B) := execRead_of_header hb hs hl hm
      _ = readFormat (s.atHeaderCheck S B) := readCheck_of_sizes h1 h2
      _ = _ := readFormat_of_some hk
  rw [hread]
  rcases hneed with ⟨rfl, hn⟩ | ⟨hne, hn⟩
  · have hready : readNeed s.params S = (s.atHeaderCheck S B).payloadGot + (S.drop 128).length := by
      simp [hn, payloadGot_eq, State.atHeaderCheck]
    rw [hready] at hover ⊢
    exact readRest_of_overCap (s := ((s.atHeaderCheck S B).selectFormat .bc1).enter .pPayload) rfl hB hover
  · rw [hn] at hover ⊢
    exact (readPayload_of_ne_bc1 hne).trans (readExact_of_overCap hover)

end Sys2Proof.Machine
end

section
/-! PROOF. The words of the formats (R90 to R105): every word that fits has a meaning, and a block's mode (R95) and a
pixel-format key's row (R101) are the ones their fields select. -/

namespace Sys2Proof

/-- Settles O23. -/
theorem everyFittingWordDecodes : Obligations.EveryFittingWordDecodes :=
  fun _ _ _ => ⟨fun h => ⟨_, decodeWord_of_lt h⟩, decodeWord_of_le⟩

/-- Settles O20: a closed fact, evaluated. -/
theorem sampleWordsDecode : Obligations.SampleWordsDecode := by
  unfold Obligations.SampleWordsDecode
  decide

/-! ### Blocks -/

/-- A field taken out is the number above it, cut to the field's width. -/
theorem extract_eq_ofNat {n : Nat} (x : BitVec n) (lo len : Nat) :
    x.extractLsb' lo len = BitVec.ofNat len (x.toNat / 2 ^ lo) := by
  rw [← BitVec.toNat_inj, extract_toNat, BitVec.toNat_ofNat]

/-- A block's mode, with the endpoints compared as numbers (R95). -/
theorem blockInstr_eq (c0 c1 : Half) (ix : Word) :
    blockInstr c0 c1 ix = if c0.toNat > c1.toNat then .blk4c c0 c1 ix else .blk3c c0 c1 ix := rfl

theorem decodeWord_bc1blk (p : Params) (q : BitVec 64) : decodeWord p .bc1blk q.toNat = .instr (decodeBlk q) := by
  simp only [decodeWord_of_lt (f := .bc1blk) q.isLt, BitVec.ofNat_toNat, BitVec.setWidth_eq]

/-- The mode and the three fields of a block in terms of the number its eight bytes make (R93, R95). -/
theorem decodeBlk_eq (q : BitVec 64) :
    decodeBlk q = if q.toNat % 2 ^ 16 > q.toNat / 2 ^ 16 % 2 ^ 16
      then .blk4c (BitVec.ofNat 16 q.toNat) (BitVec.ofNat 16 (q.toNat / 2 ^ 16)) (BitVec.ofNat 32 (q.toNat / 2 ^ 32))
      else .blk3c (BitVec.ofNat 16 q.toNat) (BitVec.ofNat 16 (q.toNat / 2 ^ 16))
        (BitVec.ofNat 32 (q.toNat / 2 ^ 32)) := by
  simp only [decodeBlk, blockInstr_eq, extract_eq_ofNat, BitVec.toNat_ofNat, Nat.pow_zero, Nat.div_one]

/-- Settles O13: decoder and palette compare the same two fields. -/
theorem blockModeComparesPackedEndpoints : Obligations.BlockModeComparesPackedEndpoints :=
  fun p q => ⟨(decodeWord_bc1blk p q).trans (congrArg Decoded.instr (decodeBlk_eq q)), fun _ _ _ => rfl⟩

/-! ### Pixel-format keys -/

theorem decodeWord_pfkey (p : Params) (flags fourCc : Word) :
    decodeWord p .pfkey (fourCc ++ flags).toNat = .instr (keyInstr p flags fourCc) := by
  simp only [decodeWord_of_lt (f := .pfkey) (fourCc ++ flags).isLt, BitVec.ofNat_toNat, BitVec.setWidth_eq, decodeKey,
    extract_append_low, extract_append_high]

/-- The row a key decodes to is the only one of the four whose condition the key meets (R101). -/
theorem filter_wf_eq_keyInstr (p : Params) (flags fourCc : Word) :
    ([.fmtBc1 flags fourCc, .fmtUnsup flags fourCc, .fmtRgb32 flags fourCc, .fmtRgb24 flags fourCc] :
      List Instr).filter (Instr.wf p) = [keyInstr p flags fourCc] := by
  by_cases hf : flags &&& p.pfFourcc = 0#32
  · by_cases ha : flags &&& p.alphaSelMask = 0#32 <;> simp [keyInstr, Instr.wf, hf, ha]
  · by_cases hc : fourCc = p.fourccBc1 <;> simp [keyInstr, Instr.wf, hf, hc]

/-- A choice under two conditions, the first of them common, as the choice in priority order. -/
theorem ite_and_ite {α : Type} {P Q : Prop} [Decidable P] [Decidable Q] (a b c : α) :
    (if P ∧ Q then a else if P then b else c) = if P then (if Q then a else b) else c := by
  by_cases hP : P <;> simp [hP]

/-- Settles O17: decoder and reader nest the conditions that the statement lists in their order. -/
theorem keySelectsExactlyOneRow : Obligations.KeySelectsExactlyOneRow := by
  intro p flags fourCc
  refine ⟨by rw [filter_wf_eq_keyInstr, List.length_singleton], ?_, ?_⟩
  · rw [decodeWord_pfkey, ite_and_ite, keyInstr]
  · rw [ite_and_ite, Machine.keyFormat]

end Sys2Proof
end

section
/-! PROOF. `READ` as the host sees it (R130 to R149): what the key's rows select, what every `READ` leaves alone and what a
failed one publishes, and that the phases compute the whole function of R149 and pull what R147's table says. -/

namespace Sys2Proof.Machine

/-! ### The rows of the pixel-format key -/

/-- Settles O38: a closed fact, evaluated. -/
theorem defaultFlagsSelectTheFormat : Obligations.DefaultFlagsSelectTheFormat := by
  unfold Obligations.DefaultFlagsSelectTheFormat
  decide

/-- Settles O18. -/
theorem formatRowsComplete : Obligations.FormatRowsComplete := fun _ _ _ => ⟨rfl, rfl, rfl⟩

/-- What the host reads after an error is what was raised (R231, R232, R240). -/
theorem State.raise_failedWith (s : State) (c : Cause) (x f : Nat) : (s.raise c x f).FailedWith c x f := by
  refine ⟨rfl, ?_, ?_, rfl, rfl⟩ <;> cases c <;> rfl

/-- Settles O19: at the check of its key a `READ` raises the error; elsewhere the row is the identity. -/
theorem unsupportedRowEndsTheRunningRead : Obligations.UnsupportedRowEndsTheRunningRead := by
  intro s flags fourCc
  refine ⟨fun hr hp => ⟨s.raiseUnsupported fourCc, ?_, s.raise_failedWith _ _ _, rfl, if_pos hr.2, ?_⟩, fun hn => ?_⟩
  · exact congrArg Host.Outcome.next (if_pos ⟨hr, hp⟩)
  · simp [State.raiseUnsupported, State.raise, hr.2]
  · exact congrArg Host.Outcome.next (if_neg hn)

/-! ### Acceptance, frame and failure -/

theorem execRead_of_not_busy {s : State} (hb : s.state ≠ .busy) : execRead s = readMagic s.acceptRead := if_neg hb

theorem readMagic_of_silent {s : State} (hs : s.sin = []) (hm : s.magicBuf.length < 4) :
    readMagic s = .next (s.storeMagic [] []) := by
  have hw : streamRead (magicBytes.length - s.magicBuf.length) [] = .waiting [] :=
    streamRead_of_none (S := []) (Nat.sub_pos_of_lt hm)
  simp only [readMagic, hs, hw]

/-- Settles O31: the first pull waits, with nothing obtained. -/
theorem acceptedReadWaitsForTheFirstAnswer : Obligations.AcceptedReadWaitsForTheFirstAnswer := by
  intro s hb hs
  calc exec .read s
    _ = readMagic s.acceptRead := execRead_of_not_busy hb
    _ = .next (s.acceptRead.storeMagic [] []) := readMagic_of_silent hs (Nat.zero_lt_succ 3)
    _ = _ := by simp [State.storeMagic, State.pulled, State.acceptRead, hs]

/-- Settles O37: a refused `READ` writes the sticky bit, an accepted one writes what acceptance and `READ`'s phases write. -/
theorem readFrame : Obligations.ReadFrame := by
  refine fun s t => ⟨fun h => ?_, fun _ hop h => (resumeRead_outcome hop h).frame⟩
  rcases execRead_outcome h with ⟨-, rfl⟩ | ⟨-, o⟩
  · rfl
  · rw [o.frame]
    rfl

theorem State.NoTexture.readsNoTexture {t : State} (h : t.NoTexture) (hn : t.state ≠ .busy) : t.ReadsNoTexture := by
  obtain ⟨hw, hh, hf, hl⟩ := h
  have hr := not_readRunning hn
  refine ⟨?_, ?_, ?_, ?_, fun a => ?_⟩
  · simp [State.hostReg, settled, hr, hw]
  · simp [State.hostReg, settled, hr, hh]
  · simp [State.hostReg, settled, hr, hf, formatTag]
  · simp [State.hostReg, settled, hr, hl]
  · simp [State.hostByte, hl]

/-- Settles O36: a `READ` starts from no Texture, and only its success publishes one. -/
theorem failedReadPublishesNothing : Obligations.FailedReadPublishesNothing := by
  intro s t hf
  have hend : ∀ u : State, ReadOutcome u t → u.NoTexture → t.ReadsNoTexture := fun u o hu =>
    (o.noTexture hu (by simp [hf])).readsNoTexture (by simp [hf])
  refine ⟨fun hb h => ?_, fun hb hop hl h => ?_⟩
  · rcases execRead_outcome h with ⟨hb', -⟩ | ⟨-, o⟩
    · exact absurd hb' hb
    · exact hend _ o s.acceptRead_noTexture
  · exact hend s (resumeRead_outcome hop h) (hl.noTexture ⟨hb, hop⟩)

/-! ### What R149's function says in terms of the key -/

/-- The result of R149 for a stream that has passed the checks of its header, by the format its key selects. -/
def resultOfKey (p : Params) (S : List Byte) (e : StreamEnd) : Option TexFormat → ReadResult
  | none => .err .unsupportedFormat p.fourccBc1.toNat (hFourCc (headerOf S)).toNat
  | some .bc1 =>
    if e = .failed then .err .sPayload 0 (S.length - 128)
    else .ok (hWidth (headerOf S)) (hHeight (headerOf S)) .bc1 (S.drop 128)
  | some fmt =>
    if S.length - 128 < payloadLength (hWidth (headerOf S)) (hHeight (headerOf S)) fmt then
      .err .sPayload (payloadLength (hWidth (headerOf S)) (hHeight (headerOf S)) fmt) (S.length - 128)
    else .ok (hWidth (headerOf S)) (hHeight (headerOf S)) fmt
      ((S.drop 128).take (payloadLength (hWidth (headerOf S)) (hHeight (headerOf S)) fmt))

theorem resultOfKey_of_ne_bc1 {p : Params} {S : List Byte} {e : StreamEnd} {fmt : TexFormat} (hne : fmt ≠ .bc1) :
    resultOfKey p S e (some fmt) =
      if S.length - 128 < payloadLength (hWidth (headerOf S)) (hHeight (headerOf S)) fmt then
        .err .sPayload (payloadLength (hWidth (headerOf S)) (hHeight (headerOf S)) fmt) (S.length - 128)
      else .ok (hWidth (headerOf S)) (hHeight (headerOf S)) fmt
        ((S.drop 128).take (payloadLength (hWidth (headerOf S)) (hHeight (headerOf S)) fmt)) := by
  cases fmt with
  | bc1 => exact absurd rfl hne
  | uncompressed24 => rfl
  | uncompressed32 => rfl

/-- Behind an uncompressed payload the stream is not asked again (R143, R147). -/
theorem endConsumed_of_ne_bc1 {w h : Word} {fmt : TexFormat} {payload : List Byte} (hne : fmt ≠ .bc1) :
    endConsumed (.ok w h fmt payload) = false := by
  cases fmt with
  | bc1 => exact absurd rfl hne
  | uncompressed24 => rfl
  | uncompressed32 => rfl

section
variable {p : Params} {S : List Byte} (hl : 128 ≤ S.length) (hm : S.take 4 = magicBytes)
  (h1 : (hSize (headerOf S)).toNat = 124) (h2 : (hPfSize (headerOf S)).toNat = 32)
include hl hm h1 h2

theorem wholeRead_of_header (e : StreamEnd) :
    wholeRead p S e = resultOfKey p S e (keyFormat p (hPfFlags (headerOf S)) (hFourCc (headerOf S))) := by
  have hl4 : ¬ S.length < 4 := by omega
  unfold wholeRead keyFormat
  rw [if_neg hl4, if_neg (not_not.mpr hm), if_neg (Nat.not_lt.mpr hl), if_neg (not_not.mpr h1),
    if_neg (not_not.mpr h2)]
  by_cases hf : hPfFlags (headerOf S) &&& p.pfFourcc ≠ 0
  · rw [if_pos hf, if_pos hf]
    by_cases hc : hFourCc (headerOf S) = p.fourccBc1
    · rw [if_neg (not_not.mpr hc), if_pos hc]
      rfl
    · rw [if_pos hc, if_neg hc]
      rfl
  · rw [if_neg hf, if_neg hf]
    by_cases ha : hPfFlags (headerOf S) &&& p.alphaSelMask ≠ 0
    · rw [if_pos ha, if_pos ha]
      rfl
    · rw [if_neg ha, if_neg ha]
      rfl

theorem readNeed_of_bc1 (hk : keyFormat p (hPfFlags (headerOf S)) (hFourCc (headerOf S)) = some .bc1) :
    readNeed p S = S.length - 128 := by
  simp [readNeed, reachesPayload, hl, hm, h1, h2, hk]

theorem readNeed_of_uncompressed {fmt : TexFormat} (hne : fmt ≠ .bc1)
    (hk : keyFormat p (hPfFlags (headerOf S)) (hFourCc (headerOf S)) = some fmt) :
    readNeed p S = payloadLength (hWidth (headerOf S)) (hHeight (headerOf S)) fmt := by
  cases fmt with
  | bc1 => exact absurd rfl hne
  | uncompressed24 => simp [readNeed, reachesPayload, hl, hm, h1, h2, hk]
  | uncompressed32 => simp [readNeed, reachesPayload, hl, hm, h1, h2, hk]

end

/-! ### What a READ that has ended leaves -/

/-- The state shows the result: the error as the host reads it, or the Texture in its registers and the payload in `PBUF`. -/
def State.Shows (t : State) : ReadResult → Prop
  | .err c x f => t.FailedWith c x f
  | .ok w h fmt payload => t.Succeeded ∧ t.tWidth = w ∧ t.tHeight = h ∧ t.tFormat = fmt ∧ t.tPaylen = payload.length ∧
      ∀ a, t.pbuf.read a = payload[a]?

/-- A `READ` of the bytes `S` and their end, with `rest` behind, has ended with this result: the state shows it, `SPOS` is
the count of R147, and the stream is left as R147 says. -/
structure State.HasRead (t : State) (S : List Byte) (e : StreamEnd) (rest : List StreamItem) (r : ReadResult) : Prop where
  shows : t.Shows r
  spos : t.spos = bytesConsumed S r
  sin : t.sin = if endConsumed r then rest else itemsOf (S.drop (bytesConsumed S r)) ++ e.item :: rest

section
variable {S : List Byte} {e : StreamEnd} {rest : List StreamItem}

theorem State.raise_hasRead {u : State} {c : Cause} {x f : Nat} (hp : u.spos = bytesConsumed S (.err c x f))
    (hs : u.sin = if endConsumed (.err c x f) then rest
      else itemsOf (S.drop (bytesConsumed S (.err c x f))) ++ e.item :: rest) :
    (u.raise c x f).HasRead S e rest (.err c x f) :=
  ⟨u.raise_failedWith c x f, hp, hs⟩

/-- A `READ` before the first byte of its payload. -/
structure State.AtPayload (u : State) (S : List Byte) (e : StreamEnd) (rest : List StreamItem) : Prop where
  enough : 128 ≤ S.length
  header : u.hdrBuf = headerOf S
  spos : u.spos = 128
  empty : u.pbuf = []
  sin : u.sin = itemsOf (S.drop 128) ++ e.item :: rest

theorem State.AtPayload.payloadGot {u : State} (h : u.AtPayload S e rest) : u.payloadGot = 0 := by
  rw [payloadGot_eq, h.spos]

/-- The payload breaks off: everything is consumed. -/
theorem State.AtPayload.failed {u : State} (h : u.AtPayload S e rest) (x f : Nat) :
    ((u.storePayload (S.drop 128) rest).raise .sPayload x f).HasRead S e rest (.err .sPayload x f) := by
  have hl := h.enough
  refine State.raise_hasRead ?_ rfl
  simp [h.spos, bytesConsumed]
  omega

/-- The payload `T` is whole. -/
theorem State.AtPayload.completed {u : State} (h : u.AtPayload S e rest) {T : List Byte} {left : List StreamItem}
    {width height : Word} {fmt : TexFormat} (hleft : left = if endConsumed (.ok width height fmt T) then rest
      else itemsOf (S.drop (128 + T.length)) ++ e.item :: rest) :
    ((u.storePayload T left).completeRead width height fmt T.length).HasRead S e rest (.ok width height fmt T) := by
  refine ⟨⟨⟨rfl, rfl, rfl, rfl, rfl⟩, rfl, rfl, rfl, rfl, fun a => ?_⟩, ?_, hleft⟩
  · rw [State.completeRead_pbuf, State.storePayload_pbuf, h.empty, h.payloadGot, Memory.read_writeList 0 T a rfl]
    by_cases ha : a < T.length
    · simp [ha]
    · simp [ha]
  · simp [h.spos, bytesConsumed]

theorem readRest_hasRead {u : State} (h : u.AtPayload S e rest)
    (hc : overCap u.params (S.length - 128) = false) :
    ∃ t, readRest u = .next t ∧ t.HasRead S e rest (if e = .failed then .err .sPayload 0 (S.length - 128)
      else .ok (hWidth (headerOf S)) (hHeight (headerOf S)) .bc1 (S.drop 128)) := by
  rw [readRest_ended h.sin h.payloadGot, List.length_drop, if_neg (by simp [hc])]
  by_cases he : e = .failed
  · rw [if_pos he, if_pos he]
    exact ⟨_, rfl, h.failed _ _⟩
  · rw [if_neg he, if_neg he, h.header, ← List.length_drop]
    exact ⟨_, rfl, h.completed rfl⟩

theorem readExact_hasRead {u : State} (h : u.AtPayload S e rest) {fmt : TexFormat} {len : Nat}
    (hne : fmt ≠ .bc1) (hc : overCap u.params len = false) :
    ∃ t, readExact fmt len u = .next t ∧ t.HasRead S e rest (if S.length - 128 < len
      then .err .sPayload len (S.length - 128)
      else .ok (hWidth (headerOf S)) (hHeight (headerOf S)) fmt ((S.drop 128).take len)) := by
  rw [readExact_ended h.sin h.payloadGot, List.length_drop, if_neg (by simp [hc])]
  by_cases hlt : S.length - 128 < len
  · rw [if_pos hlt, if_pos hlt]
    exact ⟨_, rfl, h.failed _ _⟩
  · have hlen : ((S.drop 128).take len).length = len := by
      rw [List.length_take, List.length_drop]
      exact Nat.min_eq_left (Nat.not_lt.mp hlt)
    have hdone := h.completed (T := (S.drop 128).take len) (left := itemsOf ((S.drop 128).drop len) ++ e.item :: rest)
      (width := hWidth (headerOf S)) (height := hHeight (headerOf S)) (fmt := fmt)
      (by simp [endConsumed_of_ne_bc1 hne, hlen])
    rw [hlen] at hdone
    rw [if_neg hlt, if_neg hlt, h.header]
    exact ⟨_, rfl, hdone⟩

/-! ### The phases compute R149's function -/

/-- Steps 6 to 8 (R140 to R145). -/
theorem readFormat_hasRead {s : State} (hl : 128 ≤ S.length) (hm : S.take 4 = magicBytes)
    (h1 : (hSize (headerOf S)).toNat = 124) (h2 : (hPfSize (headerOf S)).toNat = 32)
    (hc : overCap s.params (readNeed s.params S) = false) :
    ∃ t, readFormat (s.atHeaderCheck S (e.item :: rest)) = .next t ∧
      t.HasRead S e rest (wholeRead s.params S e) := by
  rw [wholeRead_of_header hl hm h1 h2 e]
  cases hk : keyFormat s.params (hPfFlags (headerOf S)) (hFourCc (headerOf S)) with
  | none =>
    refine ⟨_, ?_, State.raise_hasRead (u := s.atHeaderCheck S (e.item :: rest)) rfl rfl⟩
    simp only [readFormat, State.atHeaderCheck, State.acceptRead_params, hk]
    rfl
  | some fmt =>
    have hp : (((s.atHeaderCheck S (e.item :: rest)).selectFormat fmt).enter .pPayload).AtPayload S e rest :=
      ⟨hl, rfl, rfl, rfl, rfl⟩
    rw [readFormat_of_some (s := s.atHeaderCheck S (e.item :: rest)) hk]
    by_cases hne : fmt = .bc1
    · subst hne
      rw [readNeed_of_bc1 hl hm h1 h2 hk] at hc
      exact readRest_hasRead hp hc
    · rw [readNeed_of_uncompressed hl hm h1 h2 hne hk] at hc
      rw [readPayload_of_ne_bc1 hne, resultOfKey_of_ne_bc1 hne]
      exact readExact_hasRead hp hne hc

/-- Steps 3 and 4, and what follows (R134, R135). -/
theorem readCheck_hasRead {s : State} (hl : 128 ≤ S.length) (hm : S.take 4 = magicBytes)
    (hc : overCap s.params (readNeed s.params S) = false) :
    ∃ t, readCheck (s.atHeaderCheck S (e.item :: rest)) = .next t ∧
      t.HasRead S e rest (wholeRead s.params S e) := by
  have hl4 : ¬ S.length < 4 := by omega
  by_cases h1 : (hSize (headerOf S)).toNat = 124
  · by_cases h2 : (hPfSize (headerOf S)).toNat = 32
    · rw [readCheck_of_sizes (s := s.atHeaderCheck S (e.item :: rest)) h1 h2]
      exact readFormat_hasRead hl hm h1 h2 hc
    · have hw : wholeRead s.params S e = .err .badPfSize 32 (hPfSize (headerOf S)).toNat := by
        simp [wholeRead, hl4, hm, Nat.not_lt.mpr hl, h1, h2]
      rw [hw]
      exact ⟨_, (if_neg (not_not.mpr h1)).trans (if_pos h2),
        State.raise_hasRead (u := s.atHeaderCheck S (e.item :: rest)) rfl rfl⟩
  · have hw : wholeRead s.params S e = .err .badHeaderSize 124 (hSize (headerOf S)).toNat := by
      simp [wholeRead, hl4, hm, Nat.not_lt.mpr hl, h1]
    rw [hw]
    exact ⟨_, if_pos h1, State.raise_hasRead (u := s.atHeaderCheck S (e.item :: rest)) rfl rfl⟩

/-- The whole command (R149): within the capacity, `READ` ends with the result of R149's function. -/
theorem execRead_hasRead {s : State} (hb : s.state ≠ .busy) (hs : s.sin = itemsOf S ++ e.item :: rest)
    (hc : overCap s.params (readNeed s.params S) = false) :
    ∃ t, execRead s = .next t ∧ t.HasRead S e rest (wholeRead s.params S e) := by
  by_cases h4 : S.length < 4
  · have hw : wholeRead s.params S e = .err .sMagic 4 S.length := if_pos h4
    rw [execRead_ended hb hs, if_pos h4, hw]
    exact ⟨_, rfl, State.raise_hasRead (by simp [bytesConsumed]) rfl⟩
  by_cases hm : S.take 4 = magicBytes
  · by_cases h128 : S.length < 128
    · have hw : wholeRead s.params S e = .err .sHeader 124 (S.length - 4) := by simp [wholeRead, h4, hm, h128]
      rw [execRead_ended hb hs, if_neg h4, if_neg (not_not.mpr hm), if_pos h128, hw]
      refine ⟨_, rfl, State.raise_hasRead ?_ rfl⟩
      simp [State.withMagic, bytesConsumed]
      omega
    · have hl := Nat.not_lt.mp h128
      rw [execRead_of_header hb hs hl hm]
      exact readCheck_hasRead hl hm hc
  · have hw : wholeRead s.params S e = .err .badMagic (le32At magicBytes 0).toNat (le32At S 0).toNat :=
      (if_neg h4).trans (if_pos hm)
    rw [execRead_ended hb hs, if_neg h4, if_pos hm, hw]
    refine ⟨_, rfl, State.raise_hasRead ?_ rfl⟩
    simp [State.withMagic, bytesConsumed]
    omega

end

/-! ### The two statements -/

theorem State.Shows.not_doneOk {t : State} {c : Cause} {x f : Nat} (hr : t.Shows (.err c x f)) : t.state ≠ .doneOk := by
  obtain ⟨herr, -⟩ := hr
  simp [herr]

theorem State.Shows.succeeded {t : State} {w h : Word} {fmt : TexFormat} {payload : List Byte}
    (hr : t.Shows (.ok w h fmt payload)) : t.Succeeded := hr.1

/-- The host reads the Texture of a `READ` that has succeeded. -/
theorem State.Shows.hostReads {t : State} {w h : Word} {fmt : TexFormat} {payload : List Byte}
    (hr : t.Shows (.ok w h fmt payload)) :
    t.hostReg .tWidth = some w.toNat ∧ t.hostReg .tHeight = some h.toNat ∧
    t.hostReg .tFormat = some (tagNumber fmt) ∧ t.hostReg .tPaylen = some payload.length ∧
    ∀ a, t.hostByte .pbuf a = payload[a]? ∧ t.pbuf.read a = payload[a]? := by
  obtain ⟨⟨hok, -⟩, rfl, rfl, rfl, hlen, hbytes⟩ := hr
  have hn : ¬ t.ReadRunning := not_readRunning (by simp [hok])
  refine ⟨?_, ?_, ?_, ?_, fun a => ⟨?_, hbytes a⟩⟩
  · simp [State.hostReg, settled, hn]
  · simp [State.hostReg, settled, hn]
  · simp only [State.hostReg, settled, hn]
    cases t.tFormat <;> rfl
  · simp [State.hostReg, settled, hn, hlen]
  · by_cases ha : a < payload.length
    · simp [State.hostByte, hn, hlen, ha, hbytes]
    · simp [State.hostByte, hlen, ha]

/-- Settles O33: the phases compute the function; that a failure shows no Texture holds of every `READ`. -/
theorem readComputesTheWholeFunction : Obligations.ReadComputesTheWholeFunction := by
  intro s S e rest hb hs hc
  obtain ⟨t, ht, hr⟩ := execRead_hasRead hb hs hc
  have o : ReadOutcome s.acceptRead t := readMagic_outcome rfl ((execRead_of_not_busy hb).symm.trans ht)
  have hshows := hr.shows
  cases hw : wholeRead s.params S e with
  | err c x f =>
    rw [hw] at hshows
    exact ⟨t, ht, hshows, o.op, o.cmdRej, o.noTexture s.acceptRead_noTexture hshows.not_doneOk⟩
  | ok w h fmt payload =>
    rw [hw] at hshows
    exact ⟨t, ht, hshows.succeeded, o.op, o.cmdRej, hshows.hostReads⟩

/-- A `READ` that answers a next state stays within the capacity: O60 refuses every other. -/
theorem overCap_readNeed_of_next {s t : State} {S : List Byte} {e : StreamEnd} {rest : List StreamItem}
    (hb : s.state ≠ .busy) (hs : s.sin = itemsOf S ++ e.item :: rest) (ht : exec .read s = .next t) :
    overCap s.params (readNeed s.params S) = false := by
  cases hcap : s.params.cap with
  | none => simp [overCap, hcap]
  | some c =>
    refine overCap_of_le hcap (Nat.not_lt.mp fun hlt => ?_)
    have hend : ∀ b, (e.item :: rest).head? ≠ some (.byte b) := by cases e <;> simp [StreamEnd.item]
    exact absurd (ht.symm.trans (capacityStopsRead s c S _ hb hcap hs hend hlt)) (by simp)

/-- Settles O34: what a `READ` consumes is said with the result it ends with. -/
theorem readConsumesWhatTheTableSays : Obligations.ReadConsumesWhatTheTableSays := by
  intro s t S e rest hb hs ht
  obtain ⟨t', ht', hr⟩ := execRead_hasRead hb hs (overCap_readNeed_of_next hb hs ht)
  obtain rfl : t' = t := Host.Outcome.next.inj (ht'.symm.trans ht)
  refine ⟨hr.spos, ?_⟩
  rw [hr.spos]
  exact hr.sin

end Sys2Proof.Machine
end

section
/-! PROOF. Palettes and index lookup (R177 to R179, R187, R188): the two channel operations in naturals, the entry an index
selects, and the rows that load a block or select an entry. -/

namespace Sys2Proof.Machine

/-! ### The channel operations -/

/-- The two-thirds blend in naturals: it is at most 255 in either mode, so that a byte holds it (R187). -/
theorem blend3_toNat (mode : BlendMode) (a b : Byte) : (blend3 mode a b).toNat = blendNat mode a.toNat b.toNat := by
  have ha := a.isLt
  have hb := b.isLt
  cases mode with
  | a => exact Nat.mod_eq_of_lt (by omega)
  | b => exact Nat.mod_eq_of_lt (by omega)

/-- The average in naturals (R188). -/
theorem avg2_toNat (a b : Byte) : (avg2 a b).toNat = (a.toNat + b.toNat) / 2 := by
  have ha := a.isLt
  have hb := b.isLt
  exact Nat.mod_eq_of_lt (by omega)

theorem blend3_ne_iff (a b : Byte) : blend3 .a a b ≠ blend3 .b a b ↔ 3 ≤ 2 * a.toNat % 3 + b.toNat % 3 := by
  rw [Ne, ← BitVec.toNat_inj, blend3_toNat, blend3_toNat]
  simp only [blendNat]
  omega

theorem blend3_a_self (a : Byte) : blend3 .a a a = a := by
  rw [← BitVec.toNat_inj, blend3_toNat]
  simp only [blendNat]
  omega

/-- Settles O12: what is said of bytes is arithmetic on the two formulas. -/
theorem blendModesDifferByAtMostOne : Obligations.BlendModesDifferByAtMostOne := by
  intro a b
  refine ⟨blend3_toNat .a a b, blend3_toNat .b a b, ?_, ?_, blend3_ne_iff a b, blend3_a_self a, ?_⟩ <;>
    simp only [blend3_toNat, blendNat]
  · omega
  · omega
  · split <;> omega

/-! ### The palettes -/

/-- Settles O10: the two blended entries, channel by channel. -/
theorem fourColourPalette : Obligations.FourColourPalette := fun mode _ _ =>
  ⟨rfl, rfl, blend3_toNat mode _ _, blend3_toNat mode _ _, blend3_toNat mode _ _, blend3_toNat mode _ _,
    blend3_toNat mode _ _, blend3_toNat mode _ _⟩

/-- Settles O11: the averaged entry, channel by channel. -/
theorem threeColourPalette : Obligations.ThreeColourPalette := fun _ _ =>
  ⟨rfl, rfl, avg2_toNat _ _, avg2_toNat _ _, avg2_toNat _ _, rfl, rfl, rfl⟩

/-- Settles O14: each row is the load of its block. -/
theorem blockRowsComplete : Obligations.BlockRowsComplete := fun _ _ _ _ => ⟨rfl, rfl⟩

/-! ### Index lookup -/

/-- An index entry as a number: the pair of bits at `2n` (R94). -/
theorem indexEntry_toNat (indices : Word) (n : Nat) :
    (indexEntry indices n).toNat = indices.toNat / 2 ^ (2 * n) % 4 := by
  rw [indexEntry, BitVec.toNat_setWidth, BitVec.toNat_ushiftRight, Nat.shiftRight_eq_div_pow]

/-- The entry an index selects, with the index as a number (R96). -/
theorem paletteEntry_eq (pal : Palette) (i : BitVec 2) :
    paletteEntry pal i =
      if i.toNat = 0 then pal.p0 else if i.toNat = 1 then pal.p1 else if i.toNat = 2 then pal.p2 else pal.p3 := by
  simp only [paletteEntry, ← BitVec.toNat_inj]
  rfl

/-- Settles O15. -/
theorem indexSelectsPaletteEntry : Obligations.IndexSelectsPaletteEntry := by
  intro ix n pal _
  rw [sel, paletteEntry_eq, indexEntry_toNat]

/-- Settles O16: each row selects the entry of its number. -/
theorem selectRowsComplete : Obligations.SelectRowsComplete := fun _ => ⟨rfl, rfl, rfl, rfl⟩

end Sys2Proof.Machine
end

section
/-! PROOF. The raster and `DECODE` (R171 to R192): the grid, which pixel writes which byte, what a raster buffer holds, and
that the block walk computes R190's function of the sampled arguments. -/

namespace Sys2Proof.Machine

/-! ### The grid and the pixels' bytes -/

theorem gridCells_le (d : Word) : gridCells d ≤ 2 ^ 30 := by
  have := d.isLt
  simp only [gridCells, tile]
  omega

/-- Settles O40. -/
theorem gridHasAtLeastOneCell : Obligations.GridHasAtLeastOneCell := fun d => ⟨rfl, gridCells_pos d, gridCells_le d⟩

/-- Settles O44: a byte outside the raster reads as before. -/
theorem pixelWritesStayInsideTheRaster : Obligations.PixelWritesStayInsideTheRaster :=
  fun _ _ _ _ _ _ _ _ hm hne => Nat.not_le.mp fun hle => hne (writePixel_outside hm hle)

/-- Settles O45: the byte belongs to one pixel of the image, and that pixel to one place of one block. -/
theorem everyRasterByteIsWrittenOnce : Obligations.EveryRasterByteIsWrittenOnce := by
  intro width height a ha
  obtain ⟨R, C, j, hR, hC, hj, rfl⟩ := exists_pixelAddr ha
  refine ⟨(blockOf width R C, pixOf R C), ?_, ?_⟩
  · simp only [blockOf_row hC, blockOf_col hC]
    exact ⟨blockOf_lt hR hC, pixOf_lt R C, hR, hC, Nat.le_add_right _ _, Nat.add_lt_add_left hj _⟩
  · rintro ⟨i, n⟩ ⟨-, hn, -, hcol, hle, hlt⟩
    obtain ⟨d, hd⟩ := Nat.exists_eq_add_of_le hle
    obtain ⟨hrow, hcol', -⟩ := pixelAddr_inj (j' := d) hC hcol hj (by omega) hd
    obtain ⟨rfl, rfl⟩ := blockOf_unique hn hrow.symm hcol'.symm
    rfl

/-! ### What a raster buffer holds -/

/-- The buffer holds the raster of these dimensions whose pixel `(R, C)` has this colour, and nothing beyond it. -/
structure Memory.HoldsRaster (m : Memory) (width height : Word) (colour : Nat → Nat → Color888) : Prop where
  wf : m.wf = true
  outside : ∀ a, rasterBytes width height ≤ a → m.read a = none
  pixel : ∀ R C j, R < height.toNat → C < width.toNat → j < 3 →
    m.read (pixelAddr width R C + j) = some (channel (colour R C) j)

section
variable {m k : Memory} {width height : Word} {colour colour' : Nat → Nat → Color888}

theorem Memory.HoldsRaster.filledTo (h : m.HoldsRaster width height colour) :
    m.FilledTo (rasterBytes width height) := by
  intro a ha
  obtain ⟨R, C, j, hR, hC, hj, rfl⟩ := exists_pixelAddr ha
  rw [h.pixel R C j hR hC hj]
  rfl

/-- The colours inside the image determine the buffer. -/
theorem Memory.HoldsRaster.eq (hm : m.HoldsRaster width height colour) (hk : k.HoldsRaster width height colour')
    (h : ∀ R C, R < height.toNat → C < width.toNat → colour R C = colour' R C) : m = k := by
  refine Memory.ext_read hm.wf hk.wf fun a => ?_
  rcases Nat.lt_or_ge a (rasterBytes width height) with ha | ha
  · obtain ⟨R, C, j, hR, hC, hj, rfl⟩ := exists_pixelAddr ha
    rw [hm.pixel R C j hR hC hj, hk.pixel R C j hR hC hj, h R C hR hC]
  · rw [hm.outside a ha, hk.outside a ha]

theorem Memory.HoldsRaster.eq_nil (h : m.HoldsRaster width height colour) (h0 : rasterBytes width height = 0) :
    m = [] :=
  Memory.ext_read h.wf rfl fun a => h.outside a (h0 ▸ Nat.zero_le a)

end

/-- The walk over the whole grid, from an empty buffer, gives every pixel its colour (R184, R190). -/
theorem State.writeBlocks_holdsRaster {s : State} (hb : s.bidx = 0) :
    (s.writeBlocks s.blocksLeft []).HoldsRaster s.argWidth s.argHeight s.rasterColour := by
  obtain ⟨hwf, hout, hin⟩ := s.writeBlocks_spec s.blocksLeft [] rfl
  refine ⟨hwf, hout, fun R C j hR hC hj => ?_⟩
  have hmem : blockOf s.argWidth R C ∈ s.blocksLeft := by simp [State.blocksLeft, hb, blockOf_lt hR hC]
  rw [hin R C j hR hC hj, if_pos hmem]

/-- A colour of R190 depends on the eight bytes of its block only, which the grid's input holds (R171, R174). -/
theorem wholePixel_congr {mode : BlendMode} {data data' : Nat → Byte} {width height : Word} {R C : Nat}
    (hR : R < height.toNat) (hC : C < width.toNat) (h : ∀ j, j < gridBytes width height → data j = data' j) :
    wholePixel mode data width R C = wholePixel mode data' width R C := by
  have hlt : blockOf width R C * 8 + 8 ≤ gridBytes width height := by
    have hi := blockOf_lt hR hC
    unfold gridBytes blockBytes
    omega
  have hbyte : ∀ d, d < 8 → data (8 * blockOf width R C + d) = data' (8 * blockOf width R C + d) :=
    fun d hd => h _ (by omega)
  have h0 := hbyte 0 (by omega)
  rw [Nat.add_zero] at h0
  unfold blockOf at h0 hbyte
  simp only [wholePixel, h0, hbyte 1 (by omega), hbyte 2 (by omega), hbyte 3 (by omega), hbyte 4 (by omega),
    hbyte 5 (by omega), hbyte 6 (by omega), hbyte 7 (by omega)]

/-! ### What a DECODE that has succeeded leaves -/

theorem State.NoErrors.succeeded {t : State} (h : t.NoErrors) (hok : t.state = .doneOk) : t.Succeeded := by
  obtain ⟨hk, hc, hx, hf⟩ := h
  refine ⟨hok, ?_, ?_, congrArg some hx, congrArg some hf⟩
  · simp [State.hostReg, hk, ErrKind.code]
  · simp [State.hostReg, hc]

theorem State.hostReg_dRaslen {t : State} (h : t.state ≠ .busy) : t.hostReg .dRaslen = some t.dRaslen := by
  simp [State.hostReg, settled, not_decodeRunning h]

theorem State.hostByte_rbuf {t : State} (h : t.state ≠ .busy) {a : Nat} (ha : a < t.dRaslen) :
    t.hostByte .rbuf a = t.rbuf.read a := if_pos ⟨not_decodeRunning h, ha⟩

/-- `t` is what a `DECODE` accepted in `s` has left by succeeding: R190's raster of the arguments `s` holds. -/
structure State.HasDecoded (t s : State) : Prop where
  ok : t.state = .doneOk
  op : t.op = 2
  cmdRej : t.cmdRej = false
  noErrors : t.NoErrors
  length : t.dRaslen = rasterBytes s.dWidth s.dHeight
  raster : t.rbuf.HoldsRaster s.dWidth s.dHeight (wholePixel s.params.blend s.dbufByte s.dWidth)

/-- From an accepted `DECODE` the walk's colours are those of R190's function of the arguments. -/
theorem State.rasterColour_acceptDecode (s : State) :
    s.acceptDecode.rasterColour = wholePixel s.params.blend s.dbufByte s.dWidth := rfl

theorem DecodeOutcome.hasDecoded {s t : State} (o : DecodeOutcome s.acceptDecode t) (hok : t.state = .doneOk) :
    t.HasDecoded s := by
  rcases o.result with ⟨herr, -⟩ | ⟨-, hno, hlen, hras⟩
  · simp [hok] at herr
  · refine ⟨hok, o.op, o.cmdRej, hno, hlen, ?_⟩
    rw [hras, ← s.rasterColour_acceptDecode]
    exact s.acceptDecode.writeBlocks_holdsRaster rfl

theorem hasDecoded_of_execDecode {s t : State} (hb : s.state ≠ .busy) (h : execDecode s = .next t)
    (hok : t.state = .doneOk) : t.HasDecoded s := by
  rcases execDecode_outcome h with ⟨hb', -⟩ | ⟨-, o⟩
  · exact absurd hb' hb
  · exact o.hasDecoded hok

namespace State.HasDecoded
variable {s t : State}

theorem not_busy (h : t.HasDecoded s) : t.state ≠ .busy := by simp [h.ok]

theorem hostReg_dRaslen (h : t.HasDecoded s) : t.hostReg .dRaslen = some (rasterBytes s.dWidth s.dHeight) := by
  rw [State.hostReg_dRaslen h.not_busy, h.length]

/-- Below `D_RASLEN` the host reads what the buffer holds. -/
theorem hostByte (h : t.HasDecoded s) {a : Nat} (ha : a < rasterBytes s.dWidth s.dHeight) :
    t.hostByte .rbuf a = t.rbuf.read a := State.hostByte_rbuf h.not_busy (h.length ▸ ha)

theorem hostByte_pixel (h : t.HasDecoded s) {R C j : Nat} (hR : R < s.dHeight.toNat) (hC : C < s.dWidth.toNat)
    (hj : j < 3) :
    t.hostByte .rbuf (pixelAddr s.dWidth R C + j) =
      some (channel (wholePixel s.params.blend s.dbufByte s.dWidth R C) j) :=
  (h.hostByte (pixelAddr_lt hR hC hj)).trans (h.raster.pixel R C j hR hC hj)

end State.HasDecoded

/-! ### Which way the checks go -/

section
variable {s : State} (hin : overCap s.params s.argDatalen = false)
include hin

theorem decodeCheck_of_bad_length (h8 : s.argDatalen % 8 ≠ 0) :
    decodeCheck s = .next (s.raise .badBlockLength 0 (s.argDatalen % 8)) := by
  simp [decodeCheck, blockBytes, hin, h8]

theorem decodeCheck_of_underrun (h8 : s.argDatalen % 8 = 0) (hg : s.argDatalen < gridBytes s.argWidth s.argHeight) :
    decodeCheck s = .next (s.raise .blockUnderrun (gridBytes s.argWidth s.argHeight) s.argDatalen) := by
  simp [decodeCheck, blockBytes, hin, h8, hg]

theorem decodeCheck_of_enough (h8 : s.argDatalen % 8 = 0) (hg : gridBytes s.argWidth s.argHeight ≤ s.argDatalen)
    (hras : overCap s.params (rasterBytes s.argWidth s.argHeight) = false) :
    decodeCheck s = decodeBlocks (s.enter .pDblock) := by
  simp [decodeCheck, blockBytes, hin, h8, Nat.not_lt.mpr hg, hras]

end

section
variable {s : State} (hb : s.state ≠ .busy) (hin : overCap s.params s.dDatalen = false)
include hb hin

theorem execDecode_of_bad_length (h8 : s.dDatalen % 8 ≠ 0) :
    execDecode s = .next (s.acceptDecode.raise .badBlockLength 0 (s.dDatalen % 8)) :=
  (execDecode_of_not_busy hb).trans (decodeCheck_of_bad_length (s := s.acceptDecode) hin h8)

theorem execDecode_of_underrun (h8 : s.dDatalen % 8 = 0) (hg : s.dDatalen < gridBytes s.dWidth s.dHeight) :
    execDecode s = .next (s.acceptDecode.raise .blockUnderrun (gridBytes s.dWidth s.dHeight) s.dDatalen) :=
  (execDecode_of_not_busy hb).trans (decodeCheck_of_underrun (s := s.acceptDecode) hin h8 hg)

/-- Behind the checks the walk completes. -/
theorem execDecode_hasDecoded (h8 : s.dDatalen % 8 = 0) (hg : gridBytes s.dWidth s.dHeight ≤ s.dDatalen)
    (hras : overCap s.params (rasterBytes s.dWidth s.dHeight) = false) :
    ∃ t, execDecode s = .next t ∧ t.HasDecoded s := by
  obtain ⟨t, ht, -, hok, -⟩ := decodeBlocks_spec (s.acceptDecode.enter .pDblock)
  have hexec : execDecode s = .next t :=
    calc execDecode s
      _ = decodeCheck s.acceptDecode := execDecode_of_not_busy hb
      _ = decodeBlocks (s.acceptDecode.enter .pDblock) :=
        decodeCheck_of_enough (s := s.acceptDecode) hin h8 hg hras
      _ = .next t := ht
  exact ⟨t, hexec, hasDecoded_of_execDecode hb hexec hok⟩

end

/-! ### The statements about DECODE -/

/-- Settles O39: the two length checks in their order, and behind them R190's raster. -/
theorem decodeComputesTheWholeRaster : Obligations.DecodeComputesTheWholeRaster := by
  intro s hb hin
  refine ⟨fun h8 => ?_, fun h8 hg => ?_, fun h8 hg hras => ?_⟩
  · exact ⟨_, execDecode_of_bad_length hb hin h8, State.raise_failedWith _ _ _ _, rfl, rfl, rfl⟩
  · exact ⟨_, execDecode_of_underrun hb hin h8 hg, State.raise_failedWith _ _ _ _, rfl, rfl, rfl⟩
  · obtain ⟨t, ht, h⟩ := execDecode_hasDecoded hb hin h8 hg hras
    refine ⟨t, ht, h.noErrors.succeeded h.ok, h.op, h.cmdRej, h.hostReg_dRaslen, fun R C hR hC => ?_,
      h.raster.outside⟩
    exact ⟨h.hostByte_pixel (j := 0) hR hC (by omega), h.hostByte_pixel (j := 1) hR hC (by omega),
      h.hostByte_pixel (j := 2) hR hC (by omega)⟩

theorem rasterBytes_of_zero {width height : Word} (h : width = 0 ∨ height = 0) : rasterBytes width height = 0 := by
  rcases h with rfl | rfl <;> simp [rasterBytes]

theorem overCap_zero (p : Params) : overCap p 0 = false := by
  cases hc : p.cap with
  | none => simp [overCap, hc]
  | some c => exact overCap_of_le hc (Nat.zero_le c)

/-- Settles O41: an empty raster fits every capacity, and a buffer that holds it is empty. -/
theorem zeroDimensionGivesAnEmptyRaster : Obligations.ZeroDimensionGivesAnEmptyRaster := by
  intro s hb hin hz h8
  have h0 := rasterBytes_of_zero hz
  refine ⟨fun hg => ?_, fun hg => ?_⟩
  · exact ⟨_, execDecode_of_underrun hb hin h8 hg, State.raise_failedWith _ _ _ _, rfl⟩
  · obtain ⟨t, ht, h⟩ := execDecode_hasDecoded hb hin h8 hg (by rw [h0]; exact overCap_zero _)
    exact ⟨t, ht, h.noErrors.succeeded h.ok, h0 ▸ h.hostReg_dRaslen, h.raster.eq_nil h0⟩

/-- Settles O43: each raster is R190's function of arguments and bytes that the two runs share. -/
theorem decodeDependsOnItsInputsOnly : Obligations.DecodeDependsOnItsInputsOnly := by
  intro s₁ s₂ t₁ t₂ hb₁ hb₂ hw hh hmode hdata ht₁ ht₂ hok₁ hok₂
  have h₁ := hasDecoded_of_execDecode hb₁ ht₁ hok₁
  have h₂ := hasDecoded_of_execDecode hb₂ ht₂ hok₂
  have hlen : rasterBytes s₂.dWidth s₂.dHeight = rasterBytes s₁.dWidth s₁.dHeight := by rw [hw, hh]
  have hras : t₁.rbuf = t₂.rbuf := by
    have hr₂ := h₂.raster
    rw [← hw, ← hh, ← hmode] at hr₂
    exact h₁.raster.eq hr₂ fun R C hR hC => wholePixel_congr hR hC hdata
  refine ⟨fun a ha => ?_, ?_, ?_, hras⟩
  · rw [h₁.length] at ha
    rw [h₁.hostByte ha, h₂.hostByte (hlen ▸ ha), hras]
    exact ⟨rfl, hras ▸ h₁.raster.filledTo a ha⟩
  · rw [h₁.hostReg_dRaslen, h₂.hostReg_dRaslen, hlen]
  · simp only [State.hostReg, State.statusWord, h₁.ok, h₁.op, h₁.cmdRej, h₂.ok, h₂.op, h₂.cmdRej]

/-- Settles O46: a refused `DECODE` writes the sticky bit, an accepted one what acceptance and the walk write. -/
theorem decodeFrame : Obligations.DecodeFrame := by
  intro s t h
  rcases execDecode_outcome h with ⟨-, rfl⟩ | ⟨-, o⟩
  · rfl
  · rw [o.frame]
    rfl

end Sys2Proof.Machine
end

section
/-! PROOF. The colour expander (R210 to R215): each formula fits a byte, so that a row's result is the formula in naturals;
the tables, the rounding and the inputs where it is not bit replication are facts about the formulas. -/

namespace Sys2Proof.Machine

/-! ### The formulas -/

/-- `CX5` in naturals: the sum is at most 16360, so that a byte holds its shift (R210). -/
theorem cx5_toNat (v : BitVec 5) : (cx5 v).toNat = (v.toNat * 527 + 23) / 64 := by
  have hv := v.isLt
  exact Nat.mod_eq_of_lt (by omega)

/-- `CX6` in naturals: the sum is at most 16350, so that a byte holds its shift (R211). -/
theorem cx6_toNat (v : BitVec 6) : (cx6 v).toNat = (v.toNat * 259 + 33) / 64 := by
  have hv := v.isLt
  exact Nat.mod_eq_of_lt (by omega)

/-- The top field of a packed colour reaches its last bit, so that nothing above it is cut away (R91). -/
theorem redField_toNat (c : Half) : (c.extractLsb' 11 5).toNat = c.toNat / 2 ^ 11 := by
  have hc := c.isLt
  rw [extract_toNat, Nat.mod_eq_of_lt (by omega)]

/-- Settles O6: a packed colour's channels are the two formulas at its three fields. -/
theorem channelExpansionFormulas : Obligations.ChannelExpansionFormulas := by
  simp only [Obligations.ChannelExpansionFormulas, Nat.shiftRight_eq_div_pow]
  refine ⟨cx5_toNat, cx6_toNat, fun c => ⟨?_, ?_, ?_⟩⟩
  · rw [← redField_toNat]
    exact cx5_toNat _
  · rw [← extract_toNat]
    exact cx6_toNat _
  · rw [← Nat.div_one c.toNat, ← Nat.pow_zero 2, ← extract_toNat]
    exact cx5_toNat _

/-- Settles O9: each row writes the value of its expansion. -/
theorem expansionRowsComplete : Obligations.ExpansionRowsComplete := fun _ =>
  ⟨fun v => ⟨cx5 v, rfl, cx5_toNat v⟩, fun v => ⟨cx6 v, rfl, cx6_toNat v⟩,
    fun r5 g6 b5 => ⟨expand r5 g6 b5, rfl, cx5_toNat r5, cx6_toNat g6, cx5_toNat b5⟩⟩

/-! ### The tables, rounding and bit replication -/

/-- Settles O7: a closed fact, evaluated. -/
theorem expansionTables : Obligations.ExpansionTables := by
  unfold Obligations.ExpansionTables
  decide

/-- The fixed-point `CX5` rounds `n*255/31` half up at each of the 32 channel values (R213): a finite
fact, which fails for larger numbers, so that the values are tried. -/
theorem cx5Formula_eq_roundHalfUp : ∀ n < 32, (n * 527 + 23) / 64 = (2 * (n * 255) + 31) / (2 * 31) := by
  decide

/-- The fixed-point `CX6` rounds `n*255/63` half up at each of the 64 channel values (R213). -/
theorem cx6Formula_eq_roundHalfUp {n : Nat} (hn : n < 64) :
    (n * 259 + 33) / 64 = (2 * (n * 255) + 63) / (2 * 63) := by
  omega

/-- Settles O8: rounding is a fact about the two formulas; the fourteen inputs are found by trying all of them. -/
theorem expansionIsNotBitReplication : Obligations.ExpansionIsNotBitReplication := by
  refine ⟨fun v => ⟨?_, ?_⟩, fun v => ⟨?_, ?_⟩⟩
  · rw [cx5_toNat, cx5Formula_eq_roundHalfUp v.toNat v.isLt]
  · revert v
    decide
  · rw [cx6_toNat, cx6Formula_eq_roundHalfUp v.isLt]
  · revert v
    decide

end Sys2Proof.Machine
end

section
/-! PROOF. Every instruction runs in every state (R70, R220): a finite capacity is all that stops one. -/

namespace Sys2Proof.Machine

/-- What a command comes to under the parameters `p` where nothing but the capacity stops it (R70). -/
inductive StoppedByCapacityOnly (p : Params) : Host.Outcome State Fault Refusal → Prop where
  | runs (t : State) : StoppedByCapacityOnly p (.next t)
  | stops {n : Nat} (h : overCap p n = true) : StoppedByCapacityOnly p (.refused (.overCapacity n))

theorem overCap_eq_true_iff {p : Params} {n : Nat} : overCap p n = true ↔ ∃ c, p.cap = some c ∧ c < n := by
  cases hc : p.cap <;> simp [overCap, hc]

namespace StoppedByCapacityOnly

variable {p : Params} {o : Host.Outcome State Fault Refusal}

/-- A check against the capacity, as every phase that has one writes it. -/
theorem check {n : Nat} (h : StoppedByCapacityOnly p o) :
    StoppedByCapacityOnly p (if overCap p n then .refused (.overCapacity n) else o) := by
  split
  · rename_i hn
    exact .stops hn
  · exact h

theorem next_of_unbounded (h : StoppedByCapacityOnly p o) (hc : p.cap = none) : ∃ t, o = .next t := by
  cases h with
  | runs t => exact ⟨t, rfl⟩
  | stops hn => simp [overCap, hc] at hn

theorem ne_fault (h : StoppedByCapacityOnly p o) (f : Fault) : o ≠ .fault f := by
  cases h <;> exact nofun

theorem refused_overCapacity {r : Refusal} (h : StoppedByCapacityOnly p o) (hr : o = .refused r) :
    ∃ n c, r = .overCapacity n ∧ p.cap = some c ∧ c < n := by
  cases h with
  | runs t => cases hr
  | stops hn =>
    cases hr
    obtain ⟨c, hc, hlt⟩ := overCap_eq_true_iff.mp hn
    exact ⟨_, c, rfl, hc, hlt⟩

end StoppedByCapacityOnly

open StoppedByCapacityOnly

/-! ### READ, from its last phase to its first -/

theorem readRest_stoppedByCapacityOnly (s : State) : StoppedByCapacityOnly s.params (readRest s) := by
  unfold readRest
  split <;> exact check (.runs _)

theorem readExact_stoppedByCapacityOnly (fmt : TexFormat) (len : Nat) (s : State) :
    StoppedByCapacityOnly s.params (readExact fmt len s) := by
  refine check ?_
  split <;> exact .runs _

theorem readPayload_stoppedByCapacityOnly (fmt : TexFormat) (s : State) :
    StoppedByCapacityOnly s.params (readPayload fmt s) := by
  by_cases hf : fmt = .bc1
  · rw [hf]
    exact readRest_stoppedByCapacityOnly s
  · rw [readPayload_of_ne_bc1 hf]
    exact readExact_stoppedByCapacityOnly _ _ s

theorem readFormat_stoppedByCapacityOnly (s : State) : StoppedByCapacityOnly s.params (readFormat s) := by
  unfold readFormat
  split
  · exact .runs _
  · rename_i fmt _
    exact readPayload_stoppedByCapacityOnly fmt ((s.selectFormat fmt).enter .pPayload)

theorem readCheck_stoppedByCapacityOnly (s : State) : StoppedByCapacityOnly s.params (readCheck s) := by
  unfold readCheck
  split_ifs
  · exact .runs _
  · exact .runs _
  · exact readFormat_stoppedByCapacityOnly s

theorem readHeader_stoppedByCapacityOnly (s : State) : StoppedByCapacityOnly s.params (readHeader s) := by
  unfold readHeader
  split
  · exact .runs _
  · exact .runs _
  · exact readCheck_stoppedByCapacityOnly ((s.storeHeader _ _).enter .pCheck)

theorem readMagicCheck_stoppedByCapacityOnly (s : State) : StoppedByCapacityOnly s.params (readMagicCheck s) := by
  unfold readMagicCheck
  split
  · exact .runs _
  · exact readHeader_stoppedByCapacityOnly (s.enter .pHeader)

theorem readMagic_stoppedByCapacityOnly (s : State) : StoppedByCapacityOnly s.params (readMagic s) := by
  unfold readMagic
  split
  · exact .runs _
  · exact .runs _
  · exact readMagicCheck_stoppedByCapacityOnly (s.storeMagic _ _)

theorem execRead_stoppedByCapacityOnly (s : State) : StoppedByCapacityOnly s.params (execRead s) := by
  unfold execRead
  split
  · exact .runs _
  · exact readMagic_stoppedByCapacityOnly s.acceptRead

/-! ### DECODE -/

theorem decodeCheck_stoppedByCapacityOnly (s : State) : StoppedByCapacityOnly s.params (decodeCheck s) := by
  refine check ?_
  split_ifs with _ _ hraster
  · exact .runs _
  · exact .runs _
  · exact .stops hraster
  · exact .runs _

theorem execDecode_stoppedByCapacityOnly (s : State) : StoppedByCapacityOnly s.params (execDecode s) := by
  unfold execDecode
  split
  · exact .runs _
  · exact decodeCheck_stoppedByCapacityOnly s.acceptDecode

/-! ### Every instruction -/

/-- The rows that need no buffer run in every state, whatever the capacity. -/
theorem exec_next_of_ne {i : Instr} (hr : i ≠ .read) (hd : i ≠ .decode) (s : State) : ∃ t, exec i s = .next t := by
  cases i
  case read => exact absurd rfl hr
  case decode => exact absurd rfl hd
  all_goals exact ⟨_, rfl⟩

theorem exec_stoppedByCapacityOnly (i : Instr) (s : State) : StoppedByCapacityOnly s.params (exec i s) := by
  by_cases hr : i = .read
  · rw [hr]
    exact execRead_stoppedByCapacityOnly s
  by_cases hd : i = .decode
  · rw [hd]
    exact execDecode_stoppedByCapacityOnly s
  obtain ⟨t, ht⟩ := exec_next_of_ne hr hd s
  rw [ht]
  exact .runs t

theorem eq_read_or_decode_of_refused {i : Instr} {s : State} {r : Refusal} (h : exec i s = .refused r) :
    i = .read ∨ i = .decode := by
  by_contra hn
  obtain ⟨hr, hd⟩ := not_or.mp hn
  obtain ⟨t, ht⟩ := exec_next_of_ne hr hd s
  cases ht.symm.trans h

/-- Settles O53: nothing but the capacity stops an instruction, and only the two commands meet it. -/
theorem everyInstructionRuns : Obligations.EveryInstructionRuns := fun i s =>
  have h := exec_stoppedByCapacityOnly i s
  ⟨h.next_of_unbounded, h.ne_fault, fun _ hr => ⟨eq_read_or_decode_of_refused hr, h.refused_overCapacity hr⟩⟩

end Sys2Proof.Machine
end

section
/-! PROOF. Command words without a command, errors and rest (R231 to R253): what a write to `CMD` that starts no command
does, what raising an error writes, how `STATUS.state` changes, and which instruction can fail with which cause. -/

namespace Sys2Proof.Machine

/-! ### Command words that start no command -/

/-- Every word of the width of `CMD` reaches that format's own decoder (R90, R105). -/
theorem decodeWord_cmd (p : Params) (w : Word) : decodeWord p .cmd w.toNat = .instr (decodeCmd w) := by
  simp only [decodeWord_of_lt (f := .cmd) w.isLt, BitVec.ofNat_toNat, BitVec.setWidth_eq]

/-- A step that takes a host write of `CMD` runs the word written (R21). -/
theorem step_of_cmd {s : State} {w : Word} {es : List Event} (hin : s.inbox = .write (.cmd w) :: es) :
    step s = exec (decodeCmd w) { s with inbox := es } :=
  step_of_word hin rfl (decodeWord_cmd s.params w)

/-- Settles O1: the word 0 decodes to `NOP`. -/
theorem nopHasNoEffect : Obligations.NopHasNoEffect := fun _ => ⟨rfl, fun _ hin => step_of_cmd hin⟩

theorem decodeCmd_of_high_ne_zero {w : Word} (h : w.extractLsb' 2 30 ≠ 0) :
    decodeCmd w = .cmdRsvhi (w.extractLsb' 0 2) (w.extractLsb' 2 30) := by
  have hne : ∀ v : Word, v.extractLsb' 2 30 = 0 → w ≠ v := fun v hv hw => h (hw ▸ hv)
  simp only [decodeCmd, hne 0 rfl, hne 1 rfl, hne 2 rfl, hne 3 rfl, if_false]

theorem execDecode_of_busy {s : State} (hb : s.state = .busy) : execDecode s = .next s.reject := if_pos hb

theorem execRead_of_busy {s : State} (hb : s.state = .busy) : execRead s = .next s.reject := if_pos hb

/-- A reserved word, and a command while one runs, are refused (R247). -/
theorem exec_decodeCmd_of_refused {s : State} {w : Word}
    (h : w = 3 ∨ w.extractLsb' 2 30 ≠ 0 ∨ ((w = 1 ∨ w = 2) ∧ s.state = .busy)) :
    exec (decodeCmd w) s = .next s.reject := by
  rcases h with rfl | hhigh | ⟨rfl | rfl, hb⟩
  · rfl
  · rw [decodeCmd_of_high_ne_zero hhigh]
    rfl
  · exact execRead_of_busy hb
  · exact execDecode_of_busy hb

/-- Settles O2: each refused instruction, and each word that decodes to one, is `State.reject`. -/
theorem refusedCommandsSetCmdRejOnly : Obligations.RefusedCommandsSetCmdRejOnly := fun _ =>
  ⟨rfl, fun _ _ => rfl, fun hb => ⟨execRead_of_busy hb, execDecode_of_busy hb⟩,
    fun _ _ hin h => (step_of_cmd hin).trans (exec_decodeCmd_of_refused h)⟩

/-! ### Rest, and raising an error -/

/-- Settles O25: with or without an idle event to take, the step is the core's own. -/
theorem coreRestsBetweenCommands : Obligations.CoreRestsBetweenCommands := fun s hn =>
  ⟨fun hin => (step_of_nil hin).trans (coreStep_of_not_busy hn),
    fun es hin => (step_of_cons hin).trans (coreStep_of_not_busy (s := { s with inbox := es }) hn)⟩

/-- Settles O30: the numbers the host reads, and the frame of `State.raise` as it is defined. -/
theorem raiseReportsTheCause : Obligations.RaiseReportsTheCause :=
  fun s c x f => ⟨s.raise_failedWith c x f, rfl, rfl⟩

/-! ### How STATUS.state changes -/

/-- The core by itself only ends a running command (R245). -/
theorem coreStep_state {s t : State} (h : coreStep s = .next t) (hne : t.state ≠ s.state) :
    s.state = .busy ∧ (t.state = .doneOk ∨ t.state = .doneErr) := by
  rcases coreStep_outcome h with rfl | ⟨hr, o⟩ | ⟨hd, o⟩
  · exact absurd rfl hne
  · rcases o.result with ⟨hs, -⟩ | ⟨hs, -⟩ | ⟨hs, -⟩
    · exact absurd hs hne
    · exact ⟨hr.1, .inr hs⟩
    · exact ⟨hr.1, .inl hs⟩
  · rcases o.result with ⟨hs, -⟩ | ⟨hs, -⟩
    · exact ⟨hd.1, .inr hs⟩
    · exact ⟨hd.1, .inl hs⟩

/-- An instruction fails the `READ` at the check of its key, or is a command accepted outside `BUSY` (R141, R245). -/
theorem exec_state {i : Instr} {s t : State} (h : exec i s = .next t) (hne : t.state ≠ s.state) :
    (s.state = .busy ∧ t.state = .doneErr) ∨
    (s.state ≠ .busy ∧ t.state ≠ .idle ∧ (i = .read ∨ i = .decode)) := by
  rcases exec_outcome h with ⟨rfl, ⟨-, rfl⟩ | ⟨hn, o⟩⟩ | ⟨rfl, ⟨-, rfl⟩ | ⟨hn, o⟩⟩ | ⟨⟨_, _, -, rfl⟩, hc⟩ |
    ⟨-, -, rfl | rfl | ⟨_, rfl⟩ | ⟨_, rfl⟩ | ⟨_, rfl⟩ | ⟨_, _, _, _, rfl⟩⟩
  case inl.inr => exact .inr ⟨hn, o.not_idle rfl, .inl rfl⟩
  case inr.inl.inr => exact .inr ⟨hn, o.not_idle, .inr rfl⟩
  case inr.inr.inl => exact .inl ⟨hc.1.1, rfl⟩
  all_goals exact absurd rfl hne

/-- Settles O50: of all a step can do, only the core, an instruction and reset change the field. -/
theorem statusStateTransitions : Obligations.StatusStateTransitions := by
  intro s t h hne
  rcases step_cases h with ⟨-, hc⟩ | ⟨e, es, hin, ⟨-, hc⟩ | ⟨i, hf, hi⟩ | ⟨v, -, rfl⟩ | ⟨v, -, rfl⟩ | ⟨v, -, rfl⟩ |
    ⟨-, rfl⟩ | ⟨a, b, -, -, -, rfl⟩ | ⟨i, -, rfl⟩ | ⟨items, -, -, rfl⟩ | ⟨rfl, rfl⟩⟩
  · exact .inr (.inl (coreStep_state hc hne))
  · exact .inr (.inl (coreStep_state (s := { s with inbox := es }) hc hne))
  · rcases exec_state (s := { s with inbox := es }) hi hne with ⟨hb, he⟩ | ⟨hn, ht, hrd⟩
    · exact .inr (.inl ⟨hb, .inr he⟩)
    · exact .inr (.inr ⟨hn, ht, hrd.imp (fun e => ⟨_, e ▸ hf⟩) (fun e => ⟨_, e ▸ hf⟩)⟩)
  · exact absurd (by rw [State.writeDWidth_eq]) hne
  · exact absurd (by rw [State.writeDHeight_eq]) hne
  · exact absurd (by rw [State.writeDDatalen_eq]) hne
  · exact absurd rfl hne
  · exact absurd rfl hne
  · exact absurd rfl hne
  · exact absurd rfl hne
  · exact .inl ⟨⟨es, hin⟩, rfl⟩

/-! ### Which instruction can fail with which cause -/

/-- The error registers hold one of the causes of this command (R233). -/
def State.HoldsCauseOf (t : State) (op : BitVec 2) : Prop := ∃ c ∈ causesOf op, t.errKind = c.kind ∧ t.errCode = c.code

theorem ReadOutcome.holdsCause {s t : State} (o : ReadOutcome s t) (hb : s.state = .busy) (hf : t.state = .doneErr) :
    t.HoldsCauseOf 1 := by
  rcases o.result with ⟨hs, -⟩ | ⟨-, -, -, -, -, hc⟩ | ⟨hs, -⟩
  · simp [hs, hb] at hf
  · exact hc
  · simp [hs] at hf

theorem DecodeOutcome.holdsCause {s t : State} (o : DecodeOutcome s t) (hf : t.state = .doneErr) :
    t.HoldsCauseOf 2 := by
  rcases o.result with ⟨-, -, -, -, hc⟩ | ⟨hs, -⟩
  · exact hc
  · simp [hs] at hf

/-- Settles O52: of all an instruction can do, only an accepted command and the unsupported key come to `DONE_ERR`; whatever
else leaves the field as it was. -/
theorem onlyCommandsFail : Obligations.OnlyCommandsFail := by
  refine fun s t hf => ⟨fun i h hor => ?_, fun hb hop h => (resumeRead_outcome hop h).holdsCause hb hf⟩
  have hsame : t.state = s.state → s.state ≠ .busy ∧ (i = .read ∨ i = .decode) := fun hs =>
    hor.resolve_left fun hn => hn (hs.symm.trans hf)
  rcases exec_outcome h with ⟨rfl, ⟨hb, rfl⟩ | ⟨-, o⟩⟩ | ⟨rfl, ⟨hb, rfl⟩ | ⟨-, o⟩⟩ | ⟨⟨flags, fourCc, rfl, rfl⟩, hr, hp⟩ |
    ⟨hir, hid, hquiet⟩
  · exact absurd hb (hsame rfl).1
  · exact .inl ⟨rfl, o.holdsCause rfl hf⟩
  · exact absurd hb (hsame rfl).1
  · exact .inr (.inl ⟨rfl, o.holdsCause hf⟩)
  · exact .inr (.inr ⟨hr, hp, ⟨flags, fourCc, rfl⟩, rfl, rfl⟩)
  · have hs : t.state = s.state := by
      rcases hquiet with rfl | rfl | ⟨_, rfl⟩ | ⟨_, rfl⟩ | ⟨_, rfl⟩ | ⟨_, _, _, _, rfl⟩ <;> rfl
    exact ((hsame hs).2.elim hir hid).elim

end Sys2Proof.Machine
end

section
/-! PROOF. A `READ` whose stream is silent (R255, R271): each phase it can wait in obtains nothing and stays, and no event
but reset ends it. -/

namespace Sys2Proof.Machine

/-! ### A phase that obtains nothing -/

section
variable {s : State} (hs : s.sin = [])
include hs

theorem State.pulled_nil : s.pulled [] [] = s := by simp [State.pulled, ← hs]

theorem State.storeMagic_nil : s.storeMagic [] [] = s := by simp [State.storeMagic, State.pulled_nil hs]

theorem State.storeHeader_nil : s.storeHeader [] [] = s := by simp [State.storeHeader, State.pulled_nil hs]

theorem State.storePayload_nil : s.storePayload [] [] = s := by
  simp [State.storePayload, State.pulled_nil hs, Memory.writeList]

theorem readHeader_of_silent (hl : s.hdrBuf.length < 124) : readHeader s = .next s := by
  have hw : streamRead (hdrSize - s.hdrBuf.length) [] = .waiting [] :=
    streamRead_of_none (S := []) (Nat.sub_pos_of_lt hl)
  simp only [readHeader, hs, hw, State.storeHeader_nil hs]

theorem readRest_of_silent (hc : overCap s.params s.payloadGot = false) : readRest s = .next s := by
  have hw : streamRest [] = .waiting [] := rfl
  simp [readRest, hs, hw, hc, State.storePayload_nil hs]

theorem readExact_of_silent {fmt : TexFormat} {len : Nat} (hl : s.payloadGot < len)
    (hc : overCap s.params len = false) : readExact fmt len s = .next s := by
  have hw : streamRead (len - s.payloadGot) [] = .waiting [] :=
    streamRead_of_none (S := []) (Nat.sub_pos_of_lt hl)
  simp [readExact, hs, hw, hc, State.storePayload_nil hs]

/-- A payload that waits goes on with the format its key selects, and waits again. -/
theorem State.PayloadProgress.readFormat_of_silent (h : s.PayloadProgress) :
    ∃ fmt, readFormat s = .next { s with phase := .pPayload, fmtSel := fmt } := by
  obtain ⟨-, -, -, -, -, hkey⟩ := h
  cases hk : keyFormat s.params (hPfFlags s.hdrBuf) (hFourCc s.hdrBuf) with
  | none => rw [hk] at hkey; exact hkey.elim
  | some fmt =>
    rw [hk] at hkey
    refine ⟨fmt, (readFormat_of_some hk).trans ?_⟩
    cases fmt with
    | bc1 => exact readRest_of_silent (s := (s.selectFormat .bc1).enter .pPayload) hs hkey
    | uncompressed24 =>
      obtain ⟨hl, hcap⟩ := hkey
      rw [readPayload_uncompressed24]
      exact readExact_of_silent (s := (s.selectFormat .uncompressed24).enter .pPayload) hs hl hcap
    | uncompressed32 =>
      obtain ⟨hl, hcap⟩ := hkey
      rw [readPayload_uncompressed32]
      exact readExact_of_silent (s := (s.selectFormat .uncompressed32).enter .pPayload) hs hl hcap

/-- A running `READ` that goes on with nothing ready stays where it is. -/
theorem State.ReadProgress.resumeRead_of_silent (h : s.ReadProgress) :
    ∃ fmt, resumeRead s = .next { s with fmtSel := fmt } := by
  obtain ⟨-, ⟨hp, hl, -⟩ | ⟨hp, -, hl, -⟩ | ⟨hp, -, hpay⟩⟩ := h
  · have hm : resumeRead s = readMagic s := by simp only [resumeRead, hp]
    exact ⟨s.fmtSel, hm.trans (by rw [readMagic_of_silent hs hl, State.storeMagic_nil hs])⟩
  · have hh : resumeRead s = readHeader s := by simp only [resumeRead, hp]
    exact ⟨s.fmtSel, hh.trans (readHeader_of_silent hs hl)⟩
  · have hf : resumeRead s = readFormat s := by simp only [resumeRead, hp]
    obtain ⟨fmt, hwait⟩ := hpay.readFormat_of_silent hs
    exact ⟨fmt, hf.trans (hwait.trans (by rw [← hp]))⟩

theorem State.ReadProgress.coreStep_of_silent (h : s.ReadProgress) (hb : s.state = .busy) :
    ∃ fmt, coreStep s = .next { s with fmtSel := fmt } := by
  rw [coreStep_of_readRunning ⟨hb, h.1⟩]
  exact h.resumeRead_of_silent hs

end

/-! ### No event but reset ends it -/

/-- A running `READ` that is not at the check of its key is ended by no instruction, nor is its stream pulled (R247). -/
theorem exec_of_readRunning {i : Instr} {s t : State} (hr : s.ReadRunning) (hc : ¬ s.ReadChecking)
    (h : exec i s = .next t) : t.ReadRunning ∧ t.sin = s.sin := by
  obtain ⟨hb, hop⟩ := hr
  rcases exec_outcome h with ⟨-, ⟨-, rfl⟩ | ⟨hn, -⟩⟩ | ⟨-, ⟨-, rfl⟩ | ⟨hn, -⟩⟩ | ⟨-, hc'⟩ |
    ⟨-, -, rfl | rfl | ⟨_, rfl⟩ | ⟨_, rfl⟩ | ⟨_, rfl⟩ | ⟨_, _, _, _, rfl⟩⟩
  case inl.inr | inr.inl.inr => exact absurd hb hn
  case inr.inr.inl => exact absurd hc' hc
  all_goals exact ⟨⟨hb, hop⟩, rfl⟩

/-- Settles O32: with nothing outside acting the waiting phase is entered again; of what the world outside can do, only an
answer reaches the stream and only reset ends the `READ`. -/
theorem readWaitsWhileTheStreamIsSilent : Obligations.ReadWaitsWhileTheStreamIsSilent := by
  intro s hb hp hs
  have hr : s.ReadRunning := ⟨hb, hp.1⟩
  have hnc : ¬ s.ReadChecking := (State.phaseLegal_of_busy hb hp).not_readChecking
  have hcore : ∀ es t, coreStep { s with inbox := es } = .next t → t.state = .busy ∧ t.op = 1 ∧ t.sin = [] := by
    intro es t ht
    obtain ⟨fmt, hf⟩ := State.ReadProgress.coreStep_of_silent (s := { s with inbox := es }) hs hp hb
    cases hf.symm.trans ht
    exact ⟨hb, hp.1, hs⟩
  refine ⟨fun hin => (step_of_nil hin).symm ▸ hp.coreStep_of_silent hs hb, fun t h => ?_⟩
  rcases step_cases h with ⟨-, hc⟩ | ⟨e, es, hin, ⟨-, hc⟩ | ⟨i, -, hi⟩ | ⟨v, -, rfl⟩ | ⟨v, -, rfl⟩ | ⟨v, -, rfl⟩ |
    ⟨-, rfl⟩ | ⟨a, b, -, -, -, rfl⟩ | ⟨i, rfl, rfl⟩ | ⟨items, -, hn, rfl⟩ | ⟨rfl, rfl⟩⟩
  · obtain ⟨hb', hop', hs'⟩ := hcore s.inbox t hc
    exact .inr ⟨hb', hop', .inl hs'⟩
  · obtain ⟨hb', hop', hs'⟩ := hcore es t hc
    exact .inr ⟨hb', hop', .inl hs'⟩
  · obtain ⟨⟨hb', hop'⟩, hs'⟩ := exec_of_readRunning (s := { s with inbox := es }) hr hnc hi
    exact .inr ⟨hb', hop', .inl (hs'.trans hs)⟩
  · rw [State.writeDWidth_eq]
    exact .inr ⟨hb, hp.1, .inl hs⟩
  · rw [State.writeDHeight_eq]
    exact .inr ⟨hb, hp.1, .inl hs⟩
  · rw [State.writeDDatalen_eq]
    exact .inr ⟨hb, hp.1, .inl hs⟩
  · exact .inr ⟨hb, hp.1, .inl hs⟩
  · exact .inr ⟨hb, hp.1, .inl hs⟩
  · exact .inr ⟨hb, hp.1, .inr ⟨i, es, hin, congrArg (· ++ [i]) hs⟩⟩
  · exact absurd hr hn
  · exact .inl ⟨es, hin⟩

end Sys2Proof.Machine
end

section
/-! PROOF. What the spec assumes never happens stops the machine (R70, R281, R283): the host's two buffer and stream events,
each where it is not allowed. -/

namespace Sys2Proof.Machine

theorem writeDbufEvent_of_decodeRunning {s : State} (a : Nat) (b : Byte) (hd : s.DecodeRunning) :
    writeDbufEvent a b s = .fault .dbufWriteDuringDecode := if_pos hd

theorem writeDbufEvent_of_overCap {s : State} {a : Nat} (b : Byte) (hd : ¬ s.DecodeRunning)
    (hc : overCap s.params (a + 1) = true) : writeDbufEvent a b s = .fault .noSuchDbufByte :=
  (if_neg hd).trans (if_pos hc)

theorem attachEvent_of_readRunning {s : State} (items : List StreamItem) (hr : s.ReadRunning) :
    attachEvent items s = .fault .streamReplacedDuringRead := if_pos hr

/-- Settles O29: each breach is one guard of the event that brings it; a byte at the capacity or beyond asks for more bytes
than there are. -/
theorem brokenOwnershipStopsByName : Obligations.BrokenOwnershipStopsByName := by
  refine fun s es => ⟨fun a b hin hb hop => ?_, fun a b c hin hd hcap hle => ?_, fun items hin hb hop => ?_⟩
  · exact (step_of_cons hin).trans (writeDbufEvent_of_decodeRunning (s := { s with inbox := es }) a b ⟨hb, hop⟩)
  · have hover : overCap s.params (a + 1) = true := overCap_of_lt hcap (Nat.lt_succ_of_le hle)
    exact (step_of_cons hin).trans (writeDbufEvent_of_overCap (s := { s with inbox := es }) b hd hover)
  · exact (step_of_cons hin).trans (attachEvent_of_readRunning (s := { s with inbox := es }) items ⟨hb, hop⟩)

end Sys2Proof.Machine
end

section
/-! PROOF. Decoder and encoder agree (R90 to R105): a format's decoder takes apart what its encoder puts together, and
the rows of a format divide its words by the conditions that `Instr.wf` asks of them. -/

namespace Sys2Proof

/-! ### A word that fits reaches its format's own decoder -/

theorem decodeWord_ch5 (p : Params) (v : BitVec 5) : decodeWord p .ch5 v.toNat = .instr (.cx5 v) := by
  simp only [decodeWord_of_lt (f := .ch5) v.isLt, BitVec.ofNat_toNat, BitVec.setWidth_eq]

theorem decodeWord_ch6 (p : Params) (v : BitVec 6) : decodeWord p .ch6 v.toNat = .instr (.cx6 v) := by
  simp only [decodeWord_of_lt (f := .ch6) v.isLt, BitVec.ofNat_toNat, BitVec.setWidth_eq]

theorem decodeWord_c565 (p : Params) (v : Half) : decodeWord p .c565 v.toNat = .instr (decodeC565 v) := by
  simp only [decodeWord_of_lt (f := .c565) v.isLt, BitVec.ofNat_toNat, BitVec.setWidth_eq]

theorem decodeWord_idx2 (p : Params) (v : BitVec 2) : decodeWord p .idx2 v.toNat = .instr (decodeIdx v) := by
  simp only [decodeWord_of_lt (f := .idx2) v.isLt, BitVec.ofNat_toNat, BitVec.setWidth_eq]

theorem decodeWord_pfkey_toNat (p : Params) (key : BitVec 64) :
    decodeWord p .pfkey key.toNat = .instr (decodeKey p key) := by
  simp only [decodeWord_of_lt (f := .pfkey) key.isLt, BitVec.ofNat_toNat, BitVec.setWidth_eq]

/-! ### The fields of an encoded word -/

/-- A word with a bit above the command codes is reserved, and its two fields are those it was made of (R247). -/
theorem decodeCmd_append {zero : BitVec 30} (h : zero ≠ 0) (op : BitVec 2) :
    decodeCmd (zero ++ op) = .cmdRsvhi op zero := by
  have hhigh : (zero ++ op).extractLsb' 2 30 = zero := extract_append_high zero op
  rw [Machine.decodeCmd_of_high_ne_zero (hhigh.trans_ne h), hhigh, extract_append_low]

/-- A field above the low one of two, taken out of the high one. -/
theorem extract_append_above {n m : Nat} (a : BitVec n) (b : BitVec m) (k len : Nat) :
    (a ++ b).extractLsb' (m + k) len = a.extractLsb' k len := by
  rw [BitVec.extractLsb'_append_eq_of_le (Nat.le_add_right m k), Nat.add_sub_cancel_left]

/-- The three channels of a packed colour (R91). -/
theorem decodeC565_append (r5 : BitVec 5) (g6 : BitVec 6) (b5 : BitVec 5) :
    decodeC565 (r5 ++ g6 ++ b5) = .cx565 r5 g6 b5 := by
  have hr : (r5 ++ g6 ++ b5).extractLsb' 11 5 = r5 :=
    (extract_append_above (r5 ++ g6) b5 6 5).trans (extract_append_high r5 g6)
  have hg : (r5 ++ g6 ++ b5).extractLsb' 5 6 = g6 :=
    (extract_append_above (r5 ++ g6) b5 0 6).trans (extract_append_low r5 g6)
  rw [decodeC565, hr, hg, extract_append_low]

/-- The endpoints and the indices of a block (R93). -/
theorem decodeBlk_append (indices : Word) (c1 c0 : Half) :
    decodeBlk (indices ++ c1 ++ c0) = blockInstr c0 c1 indices := by
  have hi : (indices ++ c1 ++ c0).extractLsb' 32 32 = indices :=
    (extract_append_above (indices ++ c1) c0 16 32).trans (extract_append_high indices c1)
  have hc : (indices ++ c1 ++ c0).extractLsb' 16 16 = c1 :=
    (extract_append_above (indices ++ c1) c0 0 16).trans (extract_append_low indices c1)
  rw [decodeBlk, hi, hc, extract_append_low]

/-! ### The row a format's decoder chooses -/

/-- The instruction belongs to the format, its row's condition holds, and its word is `w`. -/
def Instr.MeaningOf (p : Params) (i : Instr) (f : Format) (w : Nat) : Prop :=
  i.wf p = true ∧ i.format = f ∧ encode i = w

theorem decodeWord_block (p : Params) (indices : Word) (c1 c0 : Half) :
    decodeWord p .bc1blk (indices ++ c1 ++ c0).toNat = .instr (blockInstr c0 c1 indices) := by
  rw [decodeWord_bc1blk p (indices ++ c1 ++ c0), decodeBlk_append]

theorem blockInstr_of_lt {c0 c1 : Half} (h : c1 < c0) (indices : Word) :
    blockInstr c0 c1 indices = .blk4c c0 c1 indices := if_pos h

theorem blockInstr_of_le {c0 c1 : Half} (h : c0 ≤ c1) (indices : Word) :
    blockInstr c0 c1 indices = .blk3c c0 c1 indices := if_neg (BitVec.not_lt.mpr h)

/-- The two rows of a block divide its words between them (R95). -/
theorem blockInstr_meaningOf (p : Params) (c0 c1 : Half) (indices : Word) :
    (blockInstr c0 c1 indices).MeaningOf p .bc1blk (indices ++ c1 ++ c0).toNat := by
  by_cases h : c1 < c0
  · rw [blockInstr_of_lt h]
    exact ⟨decide_eq_true h, rfl, rfl⟩
  · have hle : c0 ≤ c1 := BitVec.not_lt.mp h
    rw [blockInstr_of_le hle]
    exact ⟨decide_eq_true hle, rfl, rfl⟩

/-- The four rows of a pixel-format key (R101). -/
def keyRows (flags fourCc : Word) : List Instr :=
  [.fmtBc1 flags fourCc, .fmtUnsup flags fourCc, .fmtRgb32 flags fourCc, .fmtRgb24 flags fourCc]

/-- Of the four rows the decoder chooses the one whose condition the key meets (R101). -/
theorem mem_keyRows_and_wf_iff {p : Params} {flags fourCc : Word} {i : Instr} :
    i ∈ keyRows flags fourCc ∧ i.wf p = true ↔ i = keyInstr p flags fourCc := by
  rw [← List.mem_filter, keyRows, filter_wf_eq_keyInstr, List.mem_singleton]

theorem decodeWord_keyRow {p : Params} {flags fourCc : Word} {i : Instr} (hi : i ∈ keyRows flags fourCc)
    (hwf : i.wf p = true) : decodeWord p .pfkey (fourCc ++ flags).toNat = .instr i := by
  rw [decodeWord_pfkey, ← mem_keyRows_and_wf_iff.mp ⟨hi, hwf⟩]

theorem keyRows_format_encode {flags fourCc : Word} {i : Instr} (hi : i ∈ keyRows flags fourCc) :
    i.format = .pfkey ∧ encode i = (fourCc ++ flags).toNat := by
  simp only [keyRows, List.mem_cons, List.not_mem_nil, or_false] at hi
  rcases hi with rfl | rfl | rfl | rfl <;> exact ⟨rfl, rfl⟩

theorem keyInstr_meaningOf (p : Params) (flags fourCc : Word) :
    (keyInstr p flags fourCc).MeaningOf p .pfkey (fourCc ++ flags).toNat := by
  obtain ⟨hmem, hwf⟩ := mem_keyRows_and_wf_iff.mpr (rfl : keyInstr p flags fourCc = _)
  exact ⟨hwf, keyRows_format_encode hmem⟩

/-- Settles O21: each encoder's fields come apart again, and the row's condition leads the decoder back to the row. -/
theorem decodeOfEncodeIsIdentity : Obligations.DecodeOfEncodeIsIdentity := by
  intro p i hwf
  cases i with
  | nop | read | decode | cmdRsv3 | sel0 | sel1 | sel2 | sel3 => rfl
  | cmdRsvhi op zero =>
    exact (Machine.decodeWord_cmd p _).trans (congrArg _ (decodeCmd_append (of_decide_eq_true hwf) op))
  | cx5 v => exact decodeWord_ch5 p v
  | cx6 v => exact decodeWord_ch6 p v
  | cx565 r5 g6 b5 => exact (decodeWord_c565 p _).trans (congrArg _ (decodeC565_append r5 g6 b5))
  | blk4c c0 c1 indices =>
    exact (decodeWord_block p indices c1 c0).trans (congrArg _ (blockInstr_of_lt (of_decide_eq_true hwf) indices))
  | blk3c c0 c1 indices =>
    exact (decodeWord_block p indices c1 c0).trans (congrArg _ (blockInstr_of_le (of_decide_eq_true hwf) indices))
  | fmtBc1 flags fourCc | fmtUnsup flags fourCc | fmtRgb32 flags fourCc | fmtRgb24 flags fourCc =>
    exact decodeWord_keyRow (by simp [keyRows]) hwf

/-! ### From a word to its instruction and back -/

/-- The two fields of a word, side by side again. -/
theorem append_two_fields {n m : Nat} (x : BitVec (n + m)) : x.extractLsb' m n ++ x.extractLsb' 0 m = x := by
  rw [BitVec.extractLsb'_append_extractLsb'_eq_extractLsb' (Nat.zero_add m).symm, BitVec.extractLsb'_eq_self]

/-- The three fields of a word, side by side again. -/
theorem append_three_fields {n m k : Nat} (x : BitVec (n + m + k)) :
    x.extractLsb' (k + m) n ++ x.extractLsb' k m ++ x.extractLsb' 0 k = x := by
  rw [BitVec.extractLsb'_append_extractLsb'_eq_extractLsb' rfl, append_two_fields]

theorem decodeCmd_meaningOf (p : Params) (w : Word) : (decodeCmd w).MeaningOf p .cmd w.toNat := by
  by_cases hhigh : w.extractLsb' 2 30 = 0
  · have hcode : w = 0 ∨ w = 1 ∨ w = 2 ∨ w = 3 := by
      have h := congrArg BitVec.toNat hhigh
      rw [extract_toNat] at h
      bv_omega
    rcases hcode with rfl | rfl | rfl | rfl <;> exact ⟨rfl, rfl, rfl⟩
  · have hjoin : w.extractLsb' 2 30 ++ w.extractLsb' 0 2 = w := append_two_fields (n := 30) (m := 2) w
    rw [Machine.decodeCmd_of_high_ne_zero hhigh]
    exact ⟨decide_eq_true hhigh, rfl, congrArg BitVec.toNat hjoin⟩

theorem decodeC565_meaningOf (p : Params) (v : Half) : (decodeC565 v).MeaningOf p .c565 v.toNat := by
  have hjoin : v.extractLsb' 11 5 ++ v.extractLsb' 5 6 ++ v.extractLsb' 0 5 = v :=
    append_three_fields (n := 5) (m := 6) (k := 5) v
  exact ⟨rfl, rfl, congrArg BitVec.toNat hjoin⟩

theorem decodeBlk_meaningOf (p : Params) (q : BitVec 64) : (decodeBlk q).MeaningOf p .bc1blk q.toNat := by
  have hjoin : q.extractLsb' 32 32 ++ q.extractLsb' 16 16 ++ q.extractLsb' 0 16 = q :=
    append_three_fields (n := 32) (m := 16) (k := 16) q
  have h := blockInstr_meaningOf p (q.extractLsb' 0 16) (q.extractLsb' 16 16) (q.extractLsb' 32 32)
  rwa [hjoin] at h

theorem decodeIdx_meaningOf (p : Params) (v : BitVec 2) : (decodeIdx v).MeaningOf p .idx2 v.toNat := by
  have hidx : v = 0 ∨ v = 1 ∨ v = 2 ∨ v = 3 := by bv_omega
  rcases hidx with rfl | rfl | rfl | rfl <;> exact ⟨rfl, rfl, rfl⟩

theorem decodeKey_meaningOf (p : Params) (key : BitVec 64) : (decodeKey p key).MeaningOf p .pfkey key.toNat := by
  have hjoin : key.extractLsb' 32 32 ++ key.extractLsb' 0 32 = key := append_two_fields (n := 32) (m := 32) key
  have h := keyInstr_meaningOf p (key.extractLsb' 0 32) (key.extractLsb' 32 32)
  rwa [hjoin] at h

/-- A word that decodes fits its format. -/
theorem lt_of_decodeWord {p : Params} {f : Format} {w : Nat} {i : Instr} (h : decodeWord p f w = .instr i) :
    w < 2 ^ f.width := by
  by_contra hn
  rw [decodeWord_of_le (Nat.not_lt.mp hn)] at h
  cases h

/-- Settles O22: a word that decodes fits its format, and each format's decoder keeps its bits. -/
theorem encodeOfDecodeIsIdentity : Obligations.EncodeOfDecodeIsIdentity := by
  intro p f w i h
  obtain ⟨x, rfl⟩ : ∃ x : BitVec f.width, x.toNat = w := ⟨.ofNatLT w (lt_of_decodeWord h), rfl⟩
  cases f with
  | cmd =>
    cases (Machine.decodeWord_cmd p x).symm.trans h
    exact decodeCmd_meaningOf p x
  | ch5 =>
    cases (decodeWord_ch5 p x).symm.trans h
    exact ⟨rfl, rfl, rfl⟩
  | ch6 =>
    cases (decodeWord_ch6 p x).symm.trans h
    exact ⟨rfl, rfl, rfl⟩
  | c565 =>
    cases (decodeWord_c565 p x).symm.trans h
    exact decodeC565_meaningOf p x
  | bc1blk =>
    cases (decodeWord_bc1blk p x).symm.trans h
    exact decodeBlk_meaningOf p x
  | idx2 =>
    cases (decodeWord_idx2 p x).symm.trans h
    exact decodeIdx_meaningOf p x
  | pfkey =>
    cases (decodeWord_pfkey_toNat p x).symm.trans h
    exact decodeKey_meaningOf p x

end Sys2Proof
end

section
/-! PROOF. Reset (R42, R270): the state after it, as the host reads it and as the invariants ask. -/

namespace Sys2Proof.Machine

theorem State.reset_hostReg (r : Reg) : State.reset.hostReg r = some 0 := by cases r <;> rfl

/-- No output buffer has a byte below a length of zero, and nothing has been written to `DBUF` (R41, R42). -/
theorem State.reset_hostByte (sp : Space) (a : Nat) : State.reset.hostByte sp a = none := by
  cases sp with
  | dbuf => rfl
  | pbuf => simp [State.hostByte, State.reset]
  | rbuf => simp [State.hostByte, State.reset]

/-- What the host reads after a reset does not depend on the state it came in. -/
theorem State.resetNow_hostReg (s : State) (r : Reg) : s.resetNow.hostReg r = some 0 := State.reset_hostReg r

theorem State.resetNow_hostByte (s : State) (sp : Space) (a : Nat) : s.resetNow.hostByte sp a = none :=
  State.reset_hostByte sp a

/-- Settles O4: the step is `State.resetNow`, and in `IDLE` the core rests. -/
theorem resetClearsEveryRegister : Obligations.ResetClearsEveryRegister := fun s es hin =>
  ⟨({ s with inbox := es } : State).resetNow, step_of_cons hin, State.resetNow_hostReg _, rfl, rfl,
    State.resetNow_hostByte _, coreStep_of_not_busy (by simp), rfl, rfl⟩

theorem State.reset_noTexture : State.reset.NoTexture := ⟨rfl, rfl, rfl, rfl⟩

theorem State.reset_not_doneOk : State.reset.state ≠ .doneOk := by decide

theorem State.reset_handshakeLegal : State.reset.HandshakeLegal := by
  refine ⟨by unfold State.OpLegal; decide, State.errorsLegal_of_noErrors (by decide) ⟨rfl, rfl, rfl, rfl⟩, ?_⟩
  exact ⟨fun _ => State.reset_noTexture, fun _ => rfl, fun _ => ⟨State.reset_noTexture, rfl, rfl⟩⟩

theorem State.reset_lengthsFit : State.reset.LengthsFit := by
  unfold State.LengthsFit
  decide

/-- Settles O5: an idle core with no Texture, no raster and empty buffers meets each invariant. -/
theorem resetStateIsLegal : Obligations.ResetStateIsLegal :=
  ⟨State.reset_hostReg, rfl, rfl, State.reset_hostByte, ⟨rfl, rfl, rfl⟩, State.reset_handshakeLegal, rfl,
    State.reset_noTexture.textureWhole State.reset_not_doneOk,
    State.rasterWhole_of_zero rfl State.reset_not_doneOk, State.reset_lengthsFit⟩

end Sys2Proof.Machine
end
